-- ==== Sys2Proof/Word.lean ====
section
/-! DEFINITION. The words of the VDP block: bytes (every port, register and table cell, R83 of 20_memory.md)
and the 13-bit transaction word (R100 of 30_encoding.md). -/
namespace Sys2Proof

/-- One byte: what every port, register and table cell holds (R20, R22, R29 of 10_state.md). -/
abbrev Byte := BitVec 8

/-- The 13-bit transaction word T the host drives in one step (R100 of 30_encoding.md). -/
abbrev TWord := BitVec 13

end Sys2Proof
end

