-- ==== Sys2Proof/Syntax.lean ====
section
/-! DEFINITION. The transactions of the block, one constructor per row of spec/opcode_table.json (R103 of
30_encoding.md). -/
namespace Sys2Proof

/-- One transaction. The only operand is the data byte of a write (R102 of 30_encoding.md); reads and host actions
have none, since their bits 11:4 are ignored (R106). -/
inductive Instr where
  /-- OUT P0, pattern-name write (R134). -/
  | outP0 (v : Byte)
  /-- OUT P1, sprite write (R138). -/
  | outP1 (v : Byte)
  /-- OUT P2, scroll write (R141). -/
  | outP2 (v : Byte)
  /-- OUT P3, palette write (R146). -/
  | outP3 (v : Byte)
  /-- OUT P4, register data write (R122). -/
  | outP4 (v : Byte)
  /-- OUT P5, register select write (R120). -/
  | outP5 (v : Byte)
  /-- OUT P6, status clear (R160). -/
  | outP6 (v : Byte)
  /-- OUT P7, system control write (R162). -/
  | outP7 (v : Byte)
  /-- IN P0, pattern-name read (R133). -/
  | inP0
  /-- IN P1, sprite read (R137). -/
  | inP1
  /-- IN P2, scroll read (R140). -/
  | inP2
  /-- IN P3, palette read (R145). -/
  | inP3
  /-- IN P4, register data read (R123). -/
  | inP4
  /-- IN P5, register select read (R121). -/
  | inP5
  /-- IN P6, status read (R161). -/
  | inP6
  /-- IN P7, system control read (R163). -/
  | inP7
  /-- TICK, one dot of the beam (R224). -/
  | tick
  /-- POWERON, device initialisation (R262). -/
  | powerOn
  deriving DecidableEq, Repr

end Sys2Proof
end

