-- ==== Sys2Proof/WellFormed.lean ====
section
/-! DEFINITION. Which written transactions are well formed: the assembler lines of R108 and the pseudo-instructions
of R109 (30_encoding.md), with the ranges of their operands. An `Instr` carries its data byte as eight bits, so every
`Instr` is well formed; the checks bear on what a program text may hold. -/
namespace Sys2Proof

/-- Every `Instr` is well formed: "No port data value is illegal" (R107 of 30_encoding.md), and a data byte of any
other width cannot be written. -/
def Instr.wf : Instr → Bool
  | .outP0 _ | .outP1 _ | .outP2 _ | .outP3 _ | .outP4 _ | .outP5 _ | .outP6 _ | .outP7 _ => true
  | .inP0 | .inP1 | .inP2 | .inP3 | .inP4 | .inP5 | .inP6 | .inP7 | .tick | .powerOn => true

/-- One line of assembly (R108): the port and the byte as the numbers written. -/
inductive Asm where
  /-- `OUT Pn, #v` -/
  | out (n v : Nat)
  /-- `IN Pn` -/
  | inp (n : Nat)
  /-- `TICK` -/
  | tick
  /-- `POWERON` -/
  | powerOn
  deriving DecidableEq, Repr

/-- R108: the port is one of P0 to P7 and the byte is 0..255. -/
def Asm.wf : Asm → Bool
  | .out n v => decide (n < 8) && decide (v < 256)
  | .inp n => decide (n < 8)
  | .tick => true
  | .powerOn => true

/-- A pseudo-instruction of R109. -/
inductive Pseudo where
  /-- `SELR a, ari, awi`: select register a with the two flags. -/
  | selr (a ari awi : Nat)
  /-- `WREG a, v`: write register a. -/
  | wreg (a v : Nat)
  /-- `WREGS a, v0, v1, ...`: write consecutive registers from a. -/
  | wregs (a : Nat) (vs : List Nat)
  /-- `RREG a`: read register a. -/
  | rreg (a : Nat)
  /-- `SETPN pl, row, col`: position the pattern-name cursor. -/
  | setpn (pl row col : Nat)
  /-- `SETPAL i, r, g, b`: write one palette entry. -/
  | setpal (i r g b : Nat)
  /-- `ACK m`: clear the status flags set in m. -/
  | ack (m : Nat)
  /-- `RESET`: the reset operation. -/
  | reset
  /-- `TICK n`: n dots. -/
  | tick (n : Nat)
  deriving DecidableEq, Repr

/-- The operand ranges, which R109 does not write out and the model settles (log 9). DEDUCED: a register is 0..63, a flag
and a plane 0 or 1, a row or column 0..63 (R33, R34), a byte 0..255. DESIGN CHOICE: `WREGS` takes any number of values,
none included, and the n of `TICK n` is any natural number, 0 included. -/
def Pseudo.wf : Pseudo → Bool
  | .selr a ari awi => decide (a < 64) && decide (ari < 2) && decide (awi < 2)
  | .wreg a v => decide (a < 64) && decide (v < 256)
  | .wregs a vs => decide (a < 64) && vs.all fun v => decide (v < 256)
  | .rreg a => decide (a < 64)
  | .setpn pl row col => decide (pl < 2) && decide (row < 64) && decide (col < 64)
  | .setpal i r g b => decide (i < 256) && decide (r < 256) && decide (g < 256) && decide (b < 256)
  | .ack m => decide (m < 256)
  | .reset => true
  | .tick _ => true

end Sys2Proof
end

