-- ==== Sys2Proof/Decode.lean ====
section
/-! DEFINITION. The decoder, total on all 2^13 words (R104 of 30_encoding.md) and refusing the reserved host action
codes by name (R105); the encoder beside it (R108); the assembler and the pseudo-instructions (R108, R109); and the
host's view of a table row. -/
namespace Sys2Proof

/-- Why a word spells no transaction. -/
inductive Reject where
  /-- R105: a host action code 2 to 15 is reserved. -/
  | reservedAction (code : BitVec 4)
  deriving DecidableEq, Repr

/-- The field D of R100, `T[11:4]`. -/
def wordData (w : TWord) : Byte := w.extractLsb' 4 8

/-- The bits `T[3:0]`: RW and the port number, or the action code (R100). -/
def wordCode (w : TWord) : BitVec 4 := w.extractLsb' 0 4

/-- The port number A, `T[2:0]` (R100, R101). -/
def wordPort (w : TWord) : BitVec 3 := w.extractLsb' 0 3

/-- The write of a port (R101, R103: RW = 0). -/
def decodeWrite (port : Fin 8) (v : Byte) : Instr :=
  match port with
  | 0 => .outP0 v
  | 1 => .outP1 v
  | 2 => .outP2 v
  | 3 => .outP3 v
  | 4 => .outP4 v
  | 5 => .outP5 v
  | 6 => .outP6 v
  | 7 => .outP7 v

/-- The read of a port (R101, R103: RW = 1). -/
def decodeRead (port : Fin 8) : Instr :=
  match port with
  | 0 => .inP0
  | 1 => .inP1
  | 2 => .inP2
  | 3 => .inP3
  | 4 => .inP4
  | 5 => .inP5
  | 6 => .inP6
  | 7 => .inP7

/-- R104: H = 0 is the bus transaction of RW and A; H = 1 with action code 0 or 1 is TICK or POWERON; every other word
spells no transaction (R105). -/
def decode (w : TWord) : Except Reject Instr :=
  if w.getLsbD 12 then
    if wordCode w = 0 then .ok .tick
    else if wordCode w = 1 then .ok .powerOn
    else .error (.reservedAction (wordCode w))
  else if w.getLsbD 3 then .ok (decodeRead (wordPort w).toFin)
  else .ok (decodeWrite (wordPort w).toFin (wordData w))

/-- The four fields of R100 put together: H, D, RW, A. -/
def mkWord (h : BitVec 1) (d : Byte) (rw : BitVec 1) (a : BitVec 3) : TWord := h ++ d ++ rw ++ a

/-- The word of a transaction (R103, R108); the ignored bits 11:4 are written as 0 (R106). -/
def encode : Instr → TWord
  | .outP0 v => mkWord 0 v 0 0
  | .outP1 v => mkWord 0 v 0 1
  | .outP2 v => mkWord 0 v 0 2
  | .outP3 v => mkWord 0 v 0 3
  | .outP4 v => mkWord 0 v 0 4
  | .outP5 v => mkWord 0 v 0 5
  | .outP6 v => mkWord 0 v 0 6
  | .outP7 v => mkWord 0 v 0 7
  | .inP0 => mkWord 0 0 1 0
  | .inP1 => mkWord 0 0 1 1
  | .inP2 => mkWord 0 0 1 2
  | .inP3 => mkWord 0 0 1 3
  | .inP4 => mkWord 0 0 1 4
  | .inP5 => mkWord 0 0 1 5
  | .inP6 => mkWord 0 0 1 6
  | .inP7 => mkWord 0 0 1 7
  | .tick => mkWord 1 0 0 0
  | .powerOn => mkWord 1 0 0 1

/-- The bits of a word that tell its transaction: all 13 for a write; for a read and a host action `T[11:4]` is
ignored (R106), which leaves the mask 0x100F of R103. -/
def careMask : Instr → TWord
  | .outP0 _ | .outP1 _ | .outP2 _ | .outP3 _ | .outP4 _ | .outP5 _ | .outP6 _ | .outP7 _ => 0x1FFF
  | .inP0 | .inP1 | .inP2 | .inP3 | .inP4 | .inP5 | .inP6 | .inP7 | .tick | .powerOn => 0x100F

/-- The `match` column of spec/opcode_table.json (R103), under the mask 0x100F of every row. -/
def matchWord : Instr → TWord
  | .outP0 _ => 0x0000
  | .outP1 _ => 0x0001
  | .outP2 _ => 0x0002
  | .outP3 _ => 0x0003
  | .outP4 _ => 0x0004
  | .outP5 _ => 0x0005
  | .outP6 _ => 0x0006
  | .outP7 _ => 0x0007
  | .inP0 => 0x0008
  | .inP1 => 0x0009
  | .inP2 => 0x000A
  | .inP3 => 0x000B
  | .inP4 => 0x000C
  | .inP5 => 0x000D
  | .inP6 => 0x000E
  | .inP7 => 0x000F
  | .tick => 0x1000
  | .powerOn => 0x1001

/-- The transaction word in a table word: bits 12 down to 0 (R100). The table gives a row 13 bits; what stands above
bit 12 of the whole bytes the host counts is no part of the word (log 6). -/
def tableWord (nbits w : Nat) : TWord := BitVec.ofNat 13 (w % 2 ^ nbits)

/-- The transaction the decoder reads from a word numbered as spec/opcode_table.json numbers it. -/
def decodeTableWord (nbits w : Nat) : Option Instr :=
  match decode (tableWord nbits w) with
  | .ok i => some i
  | .error _ => none

/-- The word of an assembler line (R108): `(v << 4) | n`, `0x8 | n`, 0x1000, 0x1001. -/
def Asm.word : Asm → Nat
  | .out n v => v <<< 4 ||| n
  | .inp n => 0x8 ||| n
  | .tick => 0x1000
  | .powerOn => 0x1001

/-- The transaction an assembler line writes; an ill-formed line writes none. -/
def Asm.instr (a : Asm) : Option Instr :=
  if a.wf then
    match a with
    | .out n v => some (decodeWrite (Fin.ofNat 8 n) (BitVec.ofNat 8 v))
    | .inp n => some (decodeRead (Fin.ofNat 8 n))
    | .tick => some .tick
    | .powerOn => some .powerOn
  else none

/-- The line that writes a transaction. -/
def Asm.ofInstr : Instr → Asm
  | .outP0 v => .out 0 v.toNat
  | .outP1 v => .out 1 v.toNat
  | .outP2 v => .out 2 v.toNat
  | .outP3 v => .out 3 v.toNat
  | .outP4 v => .out 4 v.toNat
  | .outP5 v => .out 5 v.toNat
  | .outP6 v => .out 6 v.toNat
  | .outP7 v => .out 7 v.toNat
  | .inP0 => .inp 0
  | .inP1 => .inp 1
  | .inP2 => .inp 2
  | .inP3 => .inp 3
  | .inP4 => .inp 4
  | .inP5 => .inp 5
  | .inP6 => .inp 6
  | .inP7 => .inp 7
  | .tick => .tick
  | .powerOn => .powerOn

/-- The text of a line (R108), bytes in decimal. -/
def Asm.text : Asm → String
  | .out n v => "OUT P" ++ toString n ++ ", #" ++ toString v
  | .inp n => "IN P" ++ toString n
  | .tick => "TICK"
  | .powerOn => "POWERON"

/-- The port aliases of R108. -/
def portAlias (port : Fin 8) : String :=
  match port with
  | 0 => "PNDATA"
  | 1 => "SPDATA"
  | 2 => "SCDATA"
  | 3 => "PALDATA"
  | 4 => "REGDATA"
  | 5 => "REGSEL"
  | 6 => "STATUS"
  | 7 => "SYSCTL"

/-- `WREG a, v` (R109), which the other expansions use. -/
def expandWreg (a v : Nat) : List Asm := [.out 5 a, .out 4 v]

/-- The expansions of R109. -/
def Pseudo.expand : Pseudo → List Asm
  | .selr a ari awi => [.out 5 (awi <<< 7 ||| ari <<< 6 ||| a)]
  | .wreg a v => expandWreg a v
  | .wregs a vs => .out 5 (0x80 ||| a) :: vs.map (Asm.out 4)
  | .rreg a => [.out 5 a, .inp 4]
  | .setpn pl row col => expandWreg 0 (pl <<< 6 ||| row) ++ expandWreg 1 col
  | .setpal i r g b => expandWreg 5 i ++ [.out 3 r, .out 3 g, .out 3 b]
  | .ack m => [.out 6 m]
  | .reset => [.out 7 0x01]
  | .tick n => List.replicate n .tick

/-- The transactions a pseudo-instruction stands for; none if a line of its expansion is ill formed. -/
def Pseudo.instrs (p : Pseudo) : Option (List Instr) := p.expand.mapM Asm.instr

end Sys2Proof
end

