-- ==== Sys2Proof/Config.lean ====
section
/-! DEFINITION. The implementation parameters of R8 (00_scope.md) as one record with the spec's defaults, and the
free values: the one behaviour the source leaves undefined (R132 of 41_data_ports.md), and the bytes a table smaller than
its cursor does not have. -/
namespace Sys2Proof

/-- The parameters of R8 (00_scope.md), each with the default the spec decides: "A model takes the whole table as one
configuration record". The state carries the record and no transaction changes it (log 4). -/
structure Config where
  /-- `PAL_N`, palette entries (D11): CRAM has the entries 0 to PAL_N - 1. -/
  palN : Nat := 256
  /-- `SAT_BYTES`, bytes of the sprite attribute table (D12): SAT has the bytes 0 to SAT_BYTES - 1; how many
  entries a table of another size has is the model's choice (log 11). -/
  satBytes : Nat := 256
  /-- `NUM_TILES_8`, tile codes valid for 8x8 patterns (D20). -/
  numTiles8 : Nat := 65536
  /-- `NUM_TILES_16`, tile codes valid for 16x16 patterns (D20). -/
  numTiles16 : Nat := 16384
  /-- `NUM_SPR[s]`, sprite codes valid per size code s (D22). -/
  numSpr : Vector Nat 4 := #v[16384, 4096, 1024, 256]
  /-- `BOARD_BANK_OFFSET`, added to tile codes (D20). -/
  boardBankOffset : Nat := 0
  /-- `PAGE_CODE_SHIFT`, left shift of the page-select byte (D19). -/
  pageCodeShift : Nat := 8
  /-- `SPR_CF_SHIFT[s][k]`, sprite colour-fetch bit offset per size s and select k (D23). -/
  sprCfShift : Vector (Vector Nat 4) 4 :=
    #v[#v[4, 6, 8, 10], #v[4, 6, 8, 10], #v[4, 6, 8, 10], #v[4, 6, 8, 10]]
  /-- `H_UNIT`, dots per horizontal CRTC unit (D26). -/
  hUnit : Nat := 8
  /-- `ROZ_FRAC`, fractional bits of the ROZ parameters (R7, from the source). -/
  rozFrac : Nat := 7
  deriving DecidableEq, Repr

/-- The configuration of R8 with every parameter at its default. -/
def Config.default : Config := {}

/-- FREE VALUE. The row `y` in 0..63 of the n-th draw of R132 (PXI = PYI = 1): no law constrains it (log 3). -/
opaque Config.freePNY : Nat → BitVec 6

/-- FREE VALUE. The column `x` in 0..63 of the n-th draw of R132 (log 3). -/
opaque Config.freePNX : Nat → BitVec 6

/-- FREE VALUE. What a read of port 1 at a cursor beyond a smaller SAT answers (log 10). -/
opaque Config.freeSatByte : Byte → Byte

/-- FREE VALUE. What component k of an entry beyond a smaller palette reads as (log 10). -/
opaque Config.freeCramByte : Byte → Fin 3 → Byte

/-- FREE VALUE. The plane bit `b` in {0, 1} of the n-th draw of R132 (log 3). -/
opaque Config.freePNB : Nat → Bool

end Sys2Proof
end

