-- ==== Sys2Proof/Machine/State.lean ====
section
/-! DEFINITION. The state of the block as plain data: exactly the architectural state of R64 (10_state.md), and the
model's own fields for the host's pending words, the outputs of the latest transaction and the draws made. -/
namespace Sys2Proof.Machine

/-- A table of bytes: (address, byte) pairs, addresses strictly rising, no entry 0x00, which is what an unlisted
address reads as (power-on value, R29 of 10_state.md, R262 of 70_reset_and_hazards.md). -/
abbrev Memory := List Host.Cell

/-- The register bank R[0] to R[63] (R20 of 10_state.md). -/
abbrev Regs := Vector Byte 64

/-- The two logical tile layers; A is plane 0 and B is plane 1 (R13 of 00_scope.md). -/
inductive Plane where
  | A
  | B
  deriving DecidableEq, Repr

/-- A byte of an internal table (R80, R88 of 20_memory.md). An address that does not exist cannot be written down. -/
inductive Loc where
  /-- `PNT[a]`, 12 address bits. -/
  | pnt (a : BitVec 12)
  /-- `SAT[a]`, 8 address bits. -/
  | sat (a : Byte)
  /-- `SCR[p][a]`, 1 + 8 address bits. -/
  | scr (p : Plane) (a : Byte)
  /-- `CRAM[i][k]`, entry i, component k: 0 R, 1 G, 2 B. -/
  | cram (i : Byte) (k : Fin 3)
  deriving DecidableEq, Repr

/-- The diagnostic events of R248 (60_exceptions.md), with the info each carries. -/
inductive Anomaly where
  /-- PN_XY_AUTOINC, raised by R132: R0, R1, R2 as they stood before the draw. -/
  | pnXYAutoInc (r0 r1 r2 : Byte)
  /-- SCROLL_DIV, raised by R177: the value of R8.SDV. -/
  | scrollDiv (sdv : Nat)
  /-- TILE_CODE_RANGE, raised by R180: plane, row, col, Dec.md. -/
  | tileCodeRange (p : Plane) (row col md : Nat)
  /-- SPRITE_CODE_RANGE, raised by R195: entry and code. -/
  | spriteCodeRange (n code : Nat)
  deriving DecidableEq, Repr

/-- An output event (R11 of 00_scope.md, R31 of 10_state.md). -/
inductive Event where
  /-- R146: a palette entry with its three components goes to the host's display palette. -/
  | paletteCommit (i r g b : Byte)
  /-- R248: a diagnostic, with no effect on the state or the lines. -/
  | anomaly (a : Anomaly)
  deriving DecidableEq, Repr

/-- The state of the block. -/
@[ext]
structure State where
  /-- R[0..63] (R20). -/
  regs : Regs
  /-- P[0..7] (R22 to R26). -/
  ports : Vector Byte 8
  /-- The pattern name table (R29). -/
  pnt : Memory
  /-- The sprite attribute table (R29). -/
  sat : Memory
  /-- SCR[0], the scroll table of plane A (R29). -/
  scrA : Memory
  /-- SCR[1], the scroll table of plane B (R29). -/
  scrB : Memory
  /-- The colour palette (R29); component k of entry i under the key 4 * i + k (log 7). -/
  cram : Memory
  /-- The pattern-name read phase (R27). -/
  phR : Fin 2
  /-- The pattern-name write phase (R27). -/
  phW : Fin 2
  /-- The palette read sub-counter (R28). -/
  subR : Fin 3
  /-- The palette write sub-counter (R28). -/
  subW : Fin 3
  /-- The beam position in dots, 11 bits (R30, R251). -/
  hpos : BitVec 11
  /-- The beam position in lines, 9 bits (R30, R251). -/
  vpos : BitVec 9
  /-- MODEL'S OWN: the byte the latest transaction returned to the host, none if it was no read (R102; log 2). -/
  outByte : Option Byte
  /-- MODEL'S OWN: the events the latest transaction emitted, in order (R11, R31; log 2). -/
  outEvents : List Event
  /-- MODEL'S OWN: how many draws R132 has made, the index of the next free value (log 3). -/
  draws : Nat
  /-- MODEL'S OWN: the host's pending transaction words, oldest first (R90; log 1). -/
  input : List TWord
  /-- MODEL'S OWN: the parameters of R8 this machine is built with; no transaction changes them (log 4). -/
  config : Config
  deriving DecidableEq, Repr

/-- What a snapshot must hold: "exactly" the fields R64 (10_state.md) names, no other. -/
structure Snapshot where
  regs : Regs
  ports : Vector Byte 8
  pnt : Memory
  sat : Memory
  scrA : Memory
  scrB : Memory
  cram : Memory
  phR : Fin 2
  phW : Fin 2
  subR : Fin 3
  subW : Fin 3
  hpos : BitVec 11
  vpos : BitVec 9
  deriving DecidableEq, Repr

/-- The reasons the machine stops with a fault: none. "The block has no synchronous exception, no cause code and no
fault" (R240 of 60_exceptions.md), so this type has no constructor. -/
inductive Fault where
  deriving DecidableEq, Repr

/-- The reasons the model has no meaning for its input. -/
inductive Refusal where
  /-- Raised by an arm of exec whose instruction has no meaning yet; no arm of this model raises it. Safe: the model
  stops. -/
  | notModelled (mnemonic : String)
  /-- Raised by the step when the host's next word is a reserved host action code 2 to 15 (R105 of 30_encoding.md:
  "a model refuses them"). Safe: the model stops. -/
  | reservedAction (code : BitVec 4)
  deriving DecidableEq, Repr

/-- The state after POWERON, which is the model's initial state (R262, R263 of 70_reset_and_hazards.md): every
register, latch, table byte, phase, sub-counter and beam position is 0. The model's own fields are empty (logs 1 to 3), and
the parameters have the defaults of R8 (log 4). -/
def State.reset : State where
  regs := Vector.replicate 64 0
  ports := Vector.replicate 8 0
  pnt := []
  sat := []
  scrA := []
  scrB := []
  cram := []
  phR := 0
  phW := 0
  subR := 0
  subW := 0
  hpos := 0
  vpos := 0
  outByte := none
  outEvents := []
  draws := 0
  input := []
  config := Config.default

end Sys2Proof.Machine
end

