-- ==== Sys2Proof/Machine/Ops.lean ====
section
/-! DEFINITION. The named operations over tables, registers, port latches, outputs, free values and the host's input.
There is no exception to take: "No operation is fatal" (R240 of 60_exceptions.md), and interrupt entry is the host's
(R246); the interrupt events stand in Flags.lean. -/
namespace Sys2Proof.Machine

/-- The byte at an address of a table; an unlisted address reads 0x00 (R29 of 10_state.md). -/
def Memory.read : Memory → Nat → Byte
  | [], _ => 0
  | (k, b) :: m, a => if k = a then b else Memory.read m a

/-- Put a cell into a table that does not list its address, before the first greater address. -/
def Memory.insert (c : Host.Cell) : Memory → Memory
  | [] => [c]
  | d :: m => if c.1 < d.1 then c :: d :: m else d :: Memory.insert c m

/-- Store a byte; storing 0x00 removes the entry, so that equal tables are equal data. -/
def Memory.write (m : Memory) (a : Nat) (v : Byte) : Memory :=
  let rest := m.filter fun c => c.1 != a
  if v = 0 then rest else Memory.insert (a, v) rest

/-- Addresses strictly rise. -/
def Memory.rising (m : Memory) : Bool := decide (m.Pairwise fun c d => c.1 < d.1)

/-- The canonical form of a table of n addresses: strictly rising addresses below n, no entry 0x00. -/
def Memory.wf (n : Nat) (m : Memory) : Bool :=
  Memory.rising m && m.all fun c => decide (c.1 < n) && decide (c.2 ≠ 0)

/-- The key of `CRAM[i][k]` in its table: the "8 + 2 bits" of R80 (20_memory.md), entry above component (log 7). -/
def cramKey (i : Byte) (k : Fin 3) : Nat := 4 * i.toNat + k.val

/-- Whether the byte exists: SAT has SAT_BYTES bytes and CRAM has PAL_N entries (R8 of 00_scope.md, R29 of 10_state.md).
At the default sizes of 256 every byte does. -/
def Loc.present (c : Config) : Loc → Bool
  | .pnt _ => true
  | .sat a => decide (a.toNat < c.satBytes)
  | .scr _ _ => true
  | .cram i _ => decide (i.toNat < c.palN)

/-- `MemRead` of R11 (00_scope.md): one byte of a table. A byte the table does not have reads as a free value
(log 10). -/
def State.memRead (s : State) : Loc → Byte
  | .pnt a => Memory.read s.pnt a.toNat
  | .sat a => if a.toNat < s.config.satBytes then Memory.read s.sat a.toNat else Config.freeSatByte a
  | .scr .A a => Memory.read s.scrA a.toNat
  | .scr .B a => Memory.read s.scrB a.toNat
  | .cram i k => if i.toNat < s.config.palN then Memory.read s.cram (cramKey i k) else Config.freeCramByte i k

/-- `MemWrite` of R11 (00_scope.md): store one byte of a table. A store to a byte the table does not have stores nothing
(log 10). -/
def State.memWrite (s : State) (l : Loc) (v : Byte) : State :=
  match l with
  | .pnt a => { s with pnt := Memory.write s.pnt a.toNat v }
  | .sat a => if a.toNat < s.config.satBytes then { s with sat := Memory.write s.sat a.toNat v } else s
  | .scr .A a => { s with scrA := Memory.write s.scrA a.toNat v }
  | .scr .B a => { s with scrB := Memory.write s.scrB a.toNat v }
  | .cram i k =>
    if i.toNat < s.config.palN then { s with cram := Memory.write s.cram (cramKey i k) v } else s

/-- The byte in register i of a bank. -/
def reg (r : Regs) (i : Fin 64) : Byte := r[i.val]

/-- `R[i]` of R10 (00_scope.md). -/
def State.R (s : State) (i : Fin 64) : Byte := reg s.regs i

/-- `R[i] <- v`: no register is hardwired and no bit is read-only (R20 of 10_state.md). -/
def State.setR (s : State) (i : Fin 64) (v : Byte) : State := { s with regs := s.regs.set i.val v }

/-- `P[j]` of R10 (00_scope.md). -/
def State.P (s : State) (j : Fin 8) : Byte := s.ports[j.val]

/-- `P[j] <- v`. -/
def State.setP (s : State) (j : Fin 8) (v : Byte) : State := { s with ports := s.ports.set j.val v }

/-- A transaction begins with no byte returned and no event emitted (log 2). -/
def State.quiet (s : State) : State := { s with outByte := none, outEvents := [] }

/-- The byte a read returns to the host (R102 of 30_encoding.md). -/
def State.reply (s : State) (r : Byte) : State := { s with outByte := some r }

/-- `emit E` of R11 (00_scope.md). -/
def State.emit (s : State) (e : Event) : State := { s with outEvents := s.outEvents ++ [e] }

/-- The next draw has been made (R132 of 41_data_ports.md; log 3). -/
def State.drawn (s : State) : State := { s with draws := s.draws + 1 }

/-- The oldest pending word of the host and the state without it; none when the host drives nothing (log 1). -/
def State.fetch (s : State) : Option (TWord × State) :=
  match s.input with
  | [] => none
  | w :: rest => some (w, { s with input := rest })

/-- The snapshot of R64 (10_state.md). -/
def State.save (s : State) : Snapshot where
  regs := s.regs
  ports := s.ports
  pnt := s.pnt
  sat := s.sat
  scrA := s.scrA
  scrB := s.scrB
  cram := s.cram
  phR := s.phR
  phW := s.phW
  subR := s.subR
  subW := s.subW
  hpos := s.hpos
  vpos := s.vpos

/-- "A model restores a snapshot by setting these fields" (R64 of 10_state.md). -/
def State.restore (s : State) (n : Snapshot) : State :=
  { s with
    regs := n.regs, ports := n.ports, pnt := n.pnt, sat := n.sat, scrA := n.scrA, scrB := n.scrB, cram := n.cram,
    phR := n.phR, phW := n.phW, subR := n.subR, subW := n.subW, hpos := n.hpos, vpos := n.vpos }

end Sys2Proof.Machine
end

