-- ==== Sys2Proof/Machine/Operands.lean ====
section
/-! DEFINITION. The fields of the registers and port latches, bit by bit as 10_state.md lays them out (R23 to R58). -/
namespace Sys2Proof.Machine

/-- Bits 5:0 of a byte. -/
def low6 (x : Byte) : BitVec 6 := x.extractLsb' 0 6

/-- A byte with its bits 5:0 replaced and bits 7:6 kept. -/
def putLow6 (x : Byte) (v : BitVec 6) : Byte := (x.extractLsb' 6 2 ++ v : BitVec (2 + 6))

/-- A byte with bit i replaced and the others kept. -/
def putBit (x : Byte) (i : Nat) (b : Bool) : Byte :=
  if b then x ||| BitVec.twoPow 8 i else x &&& ~~~BitVec.twoPow 8 i

/-- The field `x[hi:lo]` of `len` bits as a number (R9 of 00_scope.md). -/
def bits (x : Byte) (lo len : Nat) : Nat := x.toNat / 2 ^ lo % 2 ^ len

/-- The bit `x[i]` as a flag (R9 of 00_scope.md). -/
def bit (x : Byte) (i : Nat) : Bool := x.getLsbD i

/-- The plane a plane bit selects: 0 is A, 1 is B (R33, R35). -/
def planeOf (b : Bool) : Plane := if b then .B else .A

/-! ## Port latches (R23, R25) -/

/-- P5.ADDR, the current register address (R23). -/
def State.addr (s : State) : BitVec 6 := low6 (s.P 5)
/-- P5.ARI: register data reads auto-increment ADDR (R23). -/
def State.ari (s : State) : Bool := bit (s.P 5) 6
/-- P5.AWI: register data writes auto-increment ADDR (R23). -/
def State.awi (s : State) : Bool := bit (s.P 5) 7
/-- `P5.ADDR <- v`. -/
def State.setAddr (s : State) (v : BitVec 6) : State := s.setP 5 (putLow6 (s.P 5) v)

/-! ## R0 to R6, pointers (R33 to R39) -/

/-- R0.PNY, row cursor of the pattern-name port (R33). -/
def pny (r : Regs) : BitVec 6 := low6 (reg r 0)
/-- R0.PNB, plane of the pattern-name port (R33). -/
def pnb (r : Regs) : Bool := bit (reg r 0) 6
/-- R1.PNX, column cursor of the pattern-name port (R34). -/
def pnx (r : Regs) : BitVec 6 := low6 (reg r 1)
/-- R2.PXI (R35). -/
def pxi (r : Regs) : Bool := bit (reg r 2) 0
/-- R2.PYI (R35). -/
def pyi (r : Regs) : Bool := bit (reg r 2) 1
/-- R2.SAI (R35). -/
def sai (r : Regs) : Bool := bit (reg r 2) 2
/-- R2.SCI (R35). -/
def sci (r : Regs) : Bool := bit (reg r 2) 3
/-- R2.CPI (R35). -/
def cpi (r : Regs) : Bool := bit (reg r 2) 4
/-- R2.SCB, plane of the scroll port (R35). -/
def scb (r : Regs) : Bool := bit (reg r 2) 5
/-- R3, SAP (R36). -/
def sap (r : Regs) : Byte := reg r 3
/-- R4, SCP (R37). -/
def scp (r : Regs) : Byte := reg r 4
/-- R5, CPP (R38). -/
def cpp (r : Regs) : Byte := reg r 5
/-- R6.SBA, sprite pattern bank base (R39). -/
def sba (r : Regs) : Nat := bits (reg r 6) 0 6

/-- `R0.PNY <- y`; the other bits of R0 stay (R132). -/
def State.setPny (s : State) (y : BitVec 6) : State := s.setR 0 (putLow6 (s.R 0) y)
/-- `R0.PNB <- b`. -/
def State.setPnb (s : State) (b : Bool) : State := s.setR 0 (putBit (s.R 0) 6 b)
/-- `R1.PNX <- x`; R1[7:6] stay (R132). -/
def State.setPnx (s : State) (x : BitVec 6) : State := s.setR 1 (putLow6 (s.R 1) x)
/-- `R2.SCB <- b`. -/
def State.setScb (s : State) (b : Bool) : State := s.setR 2 (putBit (s.R 2) 5 b)

/-! ## R7 to R13, screen control and border (R40 to R46) -/

/-- R7.DSPE, display enable (R40). -/
def dspe (r : Regs) : Bool := bit (reg r 7) 0
/-- R7.MD (R40). -/
def md (r : Regs) : Nat := bits (reg r 7) 1 2
/-- R7.FLIP (R40). -/
def flip (r : Regs) : Bool := bit (reg r 7) 3
/-- R7.SPD, sprite disable (R40). -/
def spd (r : Regs) : Bool := bit (reg r 7) 4
/-- R7.ROZE (R40). -/
def roze (r : Regs) : Bool := bit (reg r 7) 5
/-- R8.PGS, page-size flag (R41). -/
def pgs (r : Regs) : Bool := bit (reg r 8) 0
/-- R8.SDV, scroll division (R41). -/
def sdv (r : Regs) : Nat := bits (reg r 8) 1 3
/-- R9.PTS, pattern size (R42). -/
def pts (r : Regs) : Bool := bit (reg r 9) 0
/-- R9.SGA, sprite global auxiliary field (R42). -/
def sga (r : Regs) : Nat := bits (reg r 9) 1 2
/-- R9.SPAS, sprite auxiliary mode (R42). -/
def spas (r : Regs) : Bool := bit (reg r 9) 3
/-- R10.TCFE (R43). -/
def tcfe (r : Regs) : Bool := bit (reg r 10) 0
/-- R10.TCFS (R43). -/
def tcfs (r : Regs) : Nat := bits (reg r 10) 1 4
/-- R11.SCFE (R44). -/
def scfe (r : Regs) : Bool := bit (reg r 11) 0
/-- R11.SCFS (R44). -/
def scfs (r : Regs) : Nat := bits (reg r 11) 1 2
/-- R12.PRI (R45). -/
def pri (r : Regs) : Nat := bits (reg r 12) 0 2
/-- R12.TRA, transparency of plane A (R45). -/
def tra (r : Regs) : Bool := bit (reg r 12) 2
/-- R12.TRB, transparency of plane B (R45). -/
def trb (r : Regs) : Bool := bit (reg r 12) 3
/-- R13, BDC, border colour (R46). -/
def bdc (r : Regs) : Byte := reg r 13

/-! ## R14 to R16, interrupts (R47 to R49) -/

/-- R14.IEV, vblank interrupt enabled (R47). -/
def iev (r : Regs) : Bool := bit (reg r 14) 0
/-- R14.IEP, raster interrupt enabled (R47). -/
def iep (r : Regs) : Bool := bit (reg r 14) 1
/-- R14.IV8, bit 8 of the raster line (R47). -/
def iv8 (r : Regs) : Nat := bits (reg r 14) 7 1
/-- R15, IH (R48). -/
def ih (r : Regs) : Nat := (reg r 15).toNat
/-- R16, IVL (R49). -/
def ivl (r : Regs) : Nat := (reg r 16).toNat

/-! ## R17 to R24, base addresses (R50, R51) -/

/-- The register that holds `BASE[p][band]`: R[17 + band / 2] for plane A, R[21 + band / 2] for plane B. -/
def baseReg (p : Plane) (band : Fin 8) : Fin 64 :=
  match p with
  | .A => ⟨17 + band.val / 2, by omega⟩
  | .B => ⟨21 + band.val / 2, by omega⟩

/-- `BASE[p][band]`: bits 3:0 of its register for an even band, bits 7:4 for an odd one (R50, R51). -/
def base (r : Regs) (p : Plane) (band : Fin 8) : Nat := bits (reg r (baseReg p band)) (4 * (band.val % 2)) 4

/-! ## R25 to R38, ROZ raw values (R52 to R57), little-endian (R82) -/

/-- AXraw = R27 || R26 || R25 (R52). -/
def axRaw (r : Regs) : BitVec 24 := (reg r 27 ++ reg r 26 ++ reg r 25 : BitVec (8 + 8 + 8))
/-- DXraw = R29 || R28 (R53). -/
def dxRaw (r : Regs) : BitVec 16 := (reg r 29 ++ reg r 28 : BitVec (8 + 8))
/-- DXYraw = R31 || R30 (R54). -/
def dxyRaw (r : Regs) : BitVec 16 := (reg r 31 ++ reg r 30 : BitVec (8 + 8))
/-- AYraw = R34 || R33 || R32 (R55). -/
def ayRaw (r : Regs) : BitVec 24 := (reg r 34 ++ reg r 33 ++ reg r 32 : BitVec (8 + 8 + 8))
/-- DYraw = R36 || R35 (R56). -/
def dyRaw (r : Regs) : BitVec 16 := (reg r 36 ++ reg r 35 : BitVec (8 + 8))
/-- DYXraw = R38 || R37 (R57). -/
def dyxRaw (r : Regs) : BitVec 16 := (reg r 38 ++ reg r 37 : BitVec (8 + 8))

/-! ## R39 to R46, CRTC (R58) -/

/-- HTL, horizontal total, units. -/
def htl (r : Regs) : Nat := (reg r 39).toNat
/-- HDS, horizontal display start, units. -/
def hds (r : Regs) : Nat := (reg r 40).toNat
/-- HDW, horizontal display width, units. -/
def hdw (r : Regs) : Nat := (reg r 41).toNat
/-- HSW, horizontal sync width, units. -/
def hsw (r : Regs) : Nat := bits (reg r 42) 0 4
/-- HBW, horizontal border width, units. -/
def hbw (r : Regs) : Nat := bits (reg r 42) 4 4
/-- VTL, vertical total, lines: R46[0] || R43. -/
def vtl (r : Regs) : Nat := 256 * bits (reg r 46) 0 1 + (reg r 43).toNat
/-- VDS, vertical display start, lines. -/
def vds (r : Regs) : Nat := (reg r 44).toNat
/-- VDW, vertical display height, lines: R46[1] || R45. -/
def vdw (r : Regs) : Nat := 256 * bits (reg r 46) 1 1 + (reg r 45).toNat
/-- VSW, vertical sync width, lines. -/
def vsw (r : Regs) : Nat := bits (reg r 46) 2 3
/-- VBW, vertical border width, lines. -/
def vbw (r : Regs) : Nat := bits (reg r 46) 5 3

end Sys2Proof.Machine
end

