-- ==== Sys2Proof/Machine/Decoded.lean ====
section
/-! DEFINITION. The decoded fields `Dec` of R60 and the page geometry of R61 (10_state.md): functions of the register
bank, never stored, so they can never be stale (R62). -/
namespace Sys2Proof.Machine

/-- Dec.twoPlane: modes 0 and 1 have planes A and B. -/
def Dec.twoPlane (r : Regs) : Bool := md r == 0 || md r == 1

/-- Dec.pnBytes: bytes of a pattern name. -/
def Dec.pnBytes (r : Regs) : Nat := if md r = 0 then 1 else 2

/-- Dec.col16: the 16-colour attribute modes. -/
def Dec.col16 (r : Regs) : Bool := md r != 3

/-- Dec.W, page width in cells (R61). -/
def Dec.W (r : Regs) : Nat := if md r = 1 then 32 else if pgs r then 64 else 32

/-- Dec.H, page height in cells (R61). -/
def Dec.H (r : Regs) : Nat := if md r = 1 then 32 else if pgs r then 32 else 64

/-- Dec.log2W. -/
def Dec.log2W (r : Regs) : Nat := if Dec.W r = 32 then 5 else 6

/-- Dec.log2H. -/
def Dec.log2H (r : Regs) : Nat := if Dec.H r = 32 then 5 else 6

/-- Dec.planeOff, the PNT offset of plane B. -/
def Dec.planeOff (r : Regs) : Nat := if Dec.twoPlane r then 2048 else 0

/-- Dec.baseYShift: a base band is H/8 rows. -/
def Dec.baseYShift (r : Regs) : Nat := Dec.log2H r - 3

/-- Dec.tileShift, log2 of the tile size in dots (R171). -/
def Dec.tileShift (r : Regs) : Nat := 3 + (pts r).toNat

/-- Dec.planeBEnabled: plane B is disabled in single-plane modes. -/
def Dec.planeBEnabled (r : Regs) : Bool := Dec.twoPlane r

/-- Dec.AX, units of 2^-7 dot (R211). -/
def Dec.AX (r : Regs) : Int := (axRaw r).toInt
/-- Dec.AY. -/
def Dec.AY (r : Regs) : Int := (ayRaw r).toInt
/-- Dec.DX. -/
def Dec.DX (r : Regs) : Int := (dxRaw r).toInt
/-- Dec.DXY. -/
def Dec.DXY (r : Regs) : Int := (dxyRaw r).toInt
/-- Dec.DY. -/
def Dec.DY (r : Regs) : Int := (dyRaw r).toInt
/-- Dec.DYX. -/
def Dec.DYX (r : Regs) : Int := (dyxRaw r).toInt

/-- Dec.IV, the raster line: R14.IV8 || R16. -/
def Dec.IV (r : Regs) : Nat := 256 * iv8 r + ivl r

/-- Dec.htotal, dots per line. -/
def Dec.htotal (c : Config) (r : Regs) : Nat := c.hUnit * htl r
/-- Dec.vtotal, lines per frame. -/
def Dec.vtotal (r : Regs) : Nat := vtl r
/-- Dec.hdispStart, dots. -/
def Dec.hdispStart (c : Config) (r : Regs) : Nat := c.hUnit * hds r
/-- Dec.hdispWidth, dots. -/
def Dec.hdispWidth (c : Config) (r : Regs) : Nat := c.hUnit * hdw r
/-- Dec.vdispStart, lines. -/
def Dec.vdispStart (r : Regs) : Nat := vds r
/-- Dec.vdispHeight, lines. -/
def Dec.vdispHeight (r : Regs) : Nat := vdw r

/-- A layer of the picture: plane A, plane B or the sprites. -/
inductive Layer where
  | planeA
  | planeB
  | sprites
  deriving DecidableEq, Repr

/-- Dec.layerOrder, drawn first to last, selected by R12.PRI[0] (R60). -/
def Dec.layerOrder (r : Regs) : List Layer :=
  if pri r % 2 = 0 then [.planeB, .planeA, .sprites] else [.planeB, .sprites, .planeA]

/-- Page width in dots (R171). -/
def Dec.pageDotsW (r : Regs) : Nat := Dec.W r <<< Dec.tileShift r

/-- Page height in dots (R171). -/
def Dec.pageDotsH (r : Regs) : Nat := Dec.H r <<< Dec.tileShift r

end Sys2Proof.Machine
end

