-- ==== Sys2Proof/Machine/Flags.lean ====
section
/-! DEFINITION. The two status flags (R24, R63 of 10_state.md), what sets and clears them (R241, R242) and the
interrupt lines they drive (R243 of 60_exceptions.md). -/
namespace Sys2Proof.Machine

/-- P6.FV, vblank interrupt pending (R24). -/
def State.fv (s : State) : Bool := bit (s.P 6) 0
/-- P6.FP, raster interrupt pending (R24). -/
def State.fp (s : State) : Bool := bit (s.P 6) 1
/-- `P6.FV <- b`. -/
def State.setFv (s : State) (b : Bool) : State := s.setP 6 (putBit (s.P 6) 0 b)
/-- `P6.FP <- b`. -/
def State.setFp (s : State) (b : Bool) : State := s.setP 6 (putBit (s.P 6) 1 b)

/-- VblankEvent of R241: a masked event is lost. -/
def State.vblankEvent (s : State) : State := if iev s.regs then s.setFv true else s

/-- RasterEvent of R241. -/
def State.rasterEvent (s : State) : State := if iep s.regs then s.setFp true else s

/-- The clearing of R160: a 1 in bit 0 clears FV, a 1 in bit 1 clears FP, the other bits are ignored. -/
def State.statusClear (s : State) (v : Byte) : State :=
  let s1 := if bit v 0 then s.setFv false else s
  if bit v 1 then s1.setFp false else s1

/-- The line IRQ_V of R243. -/
def State.irqV (s : State) : Bool := s.fv && iev s.regs

/-- The line IRQ_R of R243. -/
def State.irqR (s : State) : Bool := s.fp && iep s.regs

end Sys2Proof.Machine
end

