-- ==== Sys2Proof/Machine/Crtc.lean ====
section
/-! DEFINITION. The CRTC: screen geometry (R221), the interrupt positions (R222, R223) and TICK (R224) of 46_crtc.md. -/
namespace Sys2Proof.Machine

/-- The screen geometry of R221. The visible area is x0..x1 by y0..y1, empty if x1 < x0 or y1 < y0. -/
structure Geometry where
  valid : Bool
  htotal : Nat
  vtotal : Nat
  x0 : Int
  x1 : Int
  y0 : Int
  y1 : Int
  framePeriod : Nat
  hsync : Nat
  vsync : Nat
  hborder : Nat
  vborder : Nat
  deriving DecidableEq, Repr

/-- The beam runs only with non-zero totals: `Geometry().valid` of R221. -/
def geometryValid (c : Config) (r : Regs) : Bool := decide (Dec.htotal c r > 0) && decide (Dec.vtotal r > 0)

/-- `framePeriod` of R221, in dots, one TICK each. -/
def framePeriod (c : Config) (r : Regs) : Nat := Dec.htotal c r * Dec.vtotal r

/-- `Geometry()` of R221, a pure function of R39 to R46; the visible area is clipped to the totals. -/
def geometry (c : Config) (r : Regs) : Geometry where
  valid := geometryValid c r
  htotal := Dec.htotal c r
  vtotal := Dec.vtotal r
  x0 := Dec.hdispStart c r
  x1 := (min (Dec.hdispStart c r + Dec.hdispWidth c r) (Dec.htotal c r) : Int) - 1
  y0 := Dec.vdispStart r
  y1 := (min (Dec.vdispStart r + Dec.vdispHeight r) (Dec.vtotal r) : Int) - 1
  framePeriod := framePeriod c r
  hsync := c.hUnit * hsw r
  vsync := vsw r
  hborder := c.hUnit * hbw r
  vborder := vbw r

/-- Whether the visible area is empty (R221). -/
def Geometry.visibleEmpty (g : Geometry) : Bool := decide (g.x1 < g.x0) || decide (g.y1 < g.y0)

/-- The vblank position of R222: dot 0 of the first line after the display area; none if the geometry is invalid or
that line is beyond the total. -/
def vblankPos (c : Config) (r : Regs) : Option (Nat × Nat) :=
  let vb := Dec.vdispStart r + Dec.vdispHeight r
  if geometryValid c r && decide (vb < Dec.vtotal r) then some (0, vb) else none

/-- The raster position of R223: dot H_UNIT * R15 of line Dec.IV; none if the geometry is invalid or the position is
beyond a total. -/
def rasterPos (c : Config) (r : Regs) : Option (Nat × Nat) :=
  let hr := c.hUnit * ih r
  if geometryValid c r && decide (hr < Dec.htotal c r) && decide (Dec.IV r < Dec.vtotal r) then some (hr, Dec.IV r)
  else none

/-- Where the beam goes at a TICK with valid geometry: the comparisons are `>=` (R224). -/
def State.beamNext (s : State) : Nat × Nat :=
  let h := s.hpos.toNat + 1
  let v := s.vpos.toNat + 1
  if h ≥ Dec.htotal s.config s.regs then (0, if v ≥ Dec.vtotal s.regs then 0 else v) else (h, s.vpos.toNat)

/-- The beam placed at a position (an assignment stores the value modulo the width, R9). -/
def State.moveBeam (s : State) (p : Nat × Nat) : State :=
  { s with hpos := BitVec.ofNat 11 p.1, vpos := BitVec.ofNat 9 p.2 }

/-- The events of a beam arriving at a position (R224): the vblank event, then the raster event. -/
def State.arrive (s : State) (p : Nat × Nat) : State :=
  let s1 := if vblankPos s.config s.regs = some p then s.vblankEvent else s
  if rasterPos s.config s.regs = some p then s1.rasterEvent else s1

/-- The TICK of R224: with invalid geometry the beam is frozen and no event occurs. -/
def State.dot (s : State) : State :=
  if geometryValid s.config s.regs then (s.moveBeam s.beamNext).arrive s.beamNext else s

/-- TICK, one dot of the beam (R224). -/
def execTick (s : State) : Host.Outcome State Fault Refusal := .next s.quiet.dot

end Sys2Proof.Machine
end

