-- ==== Sys2Proof/Machine/PalettePort.lean ====
section
/-! DEFINITION. The palette port, port 3: R142 to R146 of 41_data_ports.md. -/
namespace Sys2Proof.Machine

/-- The optional advance of the palette entry R5 after a full triplet (R145, R146). -/
def State.cpAdvance (s : State) : State := if cpi s.regs then s.setR 5 (cpp s.regs + 1) else s

/-- The sub-counter after a component that does not complete the triplet. -/
def nextSub (k : Fin 3) : Fin 3 := k + 1

/-- The event of R146: the three CRAM bytes of entry R5 as they stand. -/
def State.commitEvent (s : State) : Event :=
  .paletteCommit (cpp s.regs) (s.memRead (.cram (cpp s.regs) 0)) (s.memRead (.cram (cpp s.regs) 1))
    (s.memRead (.cram (cpp s.regs) 2))

/-- The sub-counter, commit and cursor part of R146. -/
def State.palStepWrite (s : State) : State :=
  if s.subW = 2 then ({ s with subW := 0 }.emit s.commitEvent).cpAdvance
  else { s with subW := nextSub s.subW }

/-- The sub-counter and cursor part of R145. -/
def State.palStepRead (s : State) : State :=
  if s.subR = 2 then { s with subR := 0 }.cpAdvance
  else { s with subR := nextSub s.subR }

/-- OUT P3, palette write (R146). -/
def execOutP3 (v : Byte) (s : State) : Host.Outcome State Fault Refusal :=
  let s1 := s.quiet.setP 3 v
  .next (s1.memWrite (.cram (cpp s1.regs) s1.subW) v).palStepWrite

/-- IN P3, palette read (R145). -/
def execInP3 (s : State) : Host.Outcome State Fault Refusal :=
  let s1 := s.quiet
  .next (s1.reply (s1.memRead (.cram (cpp s1.regs) s1.subR))).palStepRead

end Sys2Proof.Machine
end

