-- ==== Sys2Proof/Machine/PatternName.lean ====
section
/-! DEFINITION. The pattern-name port, port 0: R130 to R134 of 41_data_ports.md. -/
namespace Sys2Proof.Machine

/-- `PNAddr(pl, row, col, b)` of R131: the PNT address of byte b of a cell; 0..4095. -/
def pnAddr (r : Regs) (pl : Plane) (row col b : Nat) : Nat :=
  let cell := ((row % Dec.H r) <<< Dec.log2W r) + col % Dec.W r
  let off := if Dec.twoPlane r && pl == .B then Dec.planeOff r else 0
  let bb := if Dec.pnBytes r = 2 then b else 0
  off + cell * Dec.pnBytes r + bb

/-- The PNT byte at `PNAddr` (R131). -/
def pnLoc (r : Regs) (pl : Plane) (row col b : Nat) : Loc := .pnt (BitVec.ofNat 12 (pnAddr r pl row col b))

/-- The byte the port reaches: `PNAddr(R0.PNB, R0.PNY, R1.PNX, phase)` (R131). -/
def State.pnPortLoc (s : State) (phase : Fin 2) : Loc :=
  pnLoc s.regs (planeOf (pnb s.regs)) (pny s.regs).toNat (pnx s.regs).toNat phase.val

/-- The undefined cursor of R132 (PXI = PYI = 1): an anomaly, and a cursor drawn from all rows, columns and planes
(log 3). -/
def State.pnDraw (s : State) : State :=
  let n := s.draws
  let s1 := s.emit (.anomaly (.pnXYAutoInc (s.R 0) (s.R 1) (s.R 2)))
  let s2 := (s1.setPny (Config.freePNY n)).setPnx (Config.freePNX n)
  (s2.setPnb (Config.freePNB n)).drawn

/-- The row-major branch of R132 (PXI only). -/
def State.pnAdvanceX (s : State) : State :=
  let x := (pnx s.regs).toNat + 1
  let y := (pny s.regs).toNat + 1
  if x ≥ Dec.W s.regs then
    if y ≥ Dec.H s.regs then ((s.setPnb (!pnb s.regs)).setPny 0).setPnx 0
    else (s.setPny (BitVec.ofNat 6 y)).setPnx 0
  else s.setPnx (BitVec.ofNat 6 x)

/-- The column-major branch of R132 (PYI only). -/
def State.pnAdvanceY (s : State) : State :=
  let x := (pnx s.regs).toNat + 1
  let y := (pny s.regs).toNat + 1
  if y ≥ Dec.H s.regs then
    if x ≥ Dec.W s.regs then ((s.setPnb (!pnb s.regs)).setPnx 0).setPny 0
    else (s.setPnx (BitVec.ofNat 6 x)).setPny 0
  else s.setPny (BitVec.ofNat 6 y)

/-- `PNAdvance()` of R132, performed when a phase wraps. -/
def State.pnAdvance (s : State) : State :=
  if pxi s.regs && pyi s.regs then s.pnDraw
  else if pxi s.regs then s.pnAdvanceX
  else if pyi s.regs then s.pnAdvanceY
  else s

/-- The phase after an access: the step is 2 in the one-byte mode and 1 otherwise (R130). -/
def nextPhase (r : Regs) (phase : Fin 2) : Nat := phase.val + if Dec.pnBytes r = 1 then 2 else 1

/-- The phase and cursor part of R133. -/
def State.pnStepRead (s : State) : State :=
  let n := nextPhase s.regs s.phR
  if h : n < 2 then { s with phR := ⟨n, h⟩ } else { s with phR := 0 }.pnAdvance

/-- The phase and cursor part of R134. -/
def State.pnStepWrite (s : State) : State :=
  let n := nextPhase s.regs s.phW
  if h : n < 2 then { s with phW := ⟨n, h⟩ } else { s with phW := 0 }.pnAdvance

/-- OUT P0, pattern-name write (R134). -/
def execOutP0 (v : Byte) (s : State) : Host.Outcome State Fault Refusal :=
  let s1 := s.quiet.setP 0 v
  .next (s1.memWrite (s1.pnPortLoc s1.phW) v).pnStepWrite

/-- IN P0, pattern-name read (R133). -/
def execInP0 (s : State) : Host.Outcome State Fault Refusal :=
  let s1 := s.quiet
  .next (s1.reply (s1.memRead (s1.pnPortLoc s1.phR))).pnStepRead

end Sys2Proof.Machine
end

