-- ==== Sys2Proof/Machine/RegisterPort.lean ====
section
/-! DEFINITION. The register data and register select ports, ports 4 and 5: R120 to R124 of 40_register_port.md. -/
namespace Sys2Proof.Machine

/-- What a register write re-positions (R122): R0 or R1 restarts both pattern-name phases, R5 both palette
sub-counters. -/
def State.restart (s : State) (a : Fin 64) : State :=
  if a = 0 ∨ a = 1 then { s with phR := 0, phW := 0 }
  else if a = 5 then { s with subR := 0, subW := 0 }
  else s

/-- `P5.ADDR <- (a + 1) mod 64` if the flag of the access's direction is set (R122 to R124). -/
def State.addrAdvance (s : State) (flag : Bool) : State := if flag then s.setAddr (s.addr + 1) else s

/-- OUT P4, register data write (R122). -/
def execOutP4 (v : Byte) (s : State) : Host.Outcome State Fault Refusal :=
  let a := s.addr.toFin
  .next ((((s.quiet.setP 4 v).setR a v).restart a).addrAdvance s.awi)

/-- IN P4, register data read (R123). -/
def execInP4 (s : State) : Host.Outcome State Fault Refusal :=
  .next ((s.quiet.reply (s.R s.addr.toFin)).addrAdvance s.ari)

/-- OUT P5, register select write (R120). -/
def execOutP5 (v : Byte) (s : State) : Host.Outcome State Fault Refusal := .next (s.quiet.setP 5 v)

/-- IN P5, register select read (R121). -/
def execInP5 (s : State) : Host.Outcome State Fault Refusal := .next (s.quiet.reply (s.P 5))

end Sys2Proof.Machine
end

