-- ==== Sys2Proof/Machine/ScrollPort.lean ====
section
/-! DEFINITION. The scroll port, port 2: R139 to R141 of 41_data_ports.md. -/
namespace Sys2Proof.Machine

/-- `SCAdvance()` of R139: the selected plane toggles when the cursor wraps. -/
def State.scAdvance (s : State) : State :=
  if sci s.regs then
    let n := (scp s.regs).toNat + 1
    if n = 256 then (s.setR 4 0).setScb (!scb s.regs) else s.setR 4 (BitVec.ofNat 8 n)
  else s

/-- The byte the scroll port reaches: `SCR[R2.SCB][R4]`. -/
def State.scPortLoc (s : State) : Loc := .scr (planeOf (scb s.regs)) (scp s.regs)

/-- OUT P2, scroll write (R141); the write's plane is the one selected before the toggle. -/
def execOutP2 (v : Byte) (s : State) : Host.Outcome State Fault Refusal :=
  let s1 := s.quiet.setP 2 v
  .next (s1.memWrite s1.scPortLoc v).scAdvance

/-- IN P2, scroll read (R140). -/
def execInP2 (s : State) : Host.Outcome State Fault Refusal :=
  let s1 := s.quiet
  .next (s1.reply (s1.memRead s1.scPortLoc)).scAdvance

end Sys2Proof.Machine
end

