-- ==== Sys2Proof/Machine/SpritePort.lean ====
section
/-! DEFINITION. The sprite port, port 1: R136 to R138 of 41_data_ports.md. -/
namespace Sys2Proof.Machine

/-- The optional advance of the sprite cursor R3 (R137, R138): modulo 256, with no other effect. -/
def State.saAdvance (s : State) : State := if sai s.regs then s.setR 3 (sap s.regs + 1) else s

/-- OUT P1, sprite write (R138). -/
def execOutP1 (v : Byte) (s : State) : Host.Outcome State Fault Refusal :=
  let s1 := s.quiet.setP 1 v
  .next (s1.memWrite (.sat (sap s1.regs)) v).saAdvance

/-- IN P1, sprite read (R137). -/
def execInP1 (s : State) : Host.Outcome State Fault Refusal :=
  let s1 := s.quiet
  .next (s1.reply (s1.memRead (.sat (sap s1.regs)))).saAdvance

end Sys2Proof.Machine
end

