-- ==== Sys2Proof/Machine/Reset.lean ====
section
/-! DEFINITION. The reset operation and device initialisation: R260 and R262 of 70_reset_and_hazards.md. -/
namespace Sys2Proof.Machine

/-- The registers the reset operation zeroes: 0 to 38 and 47 to 49 (R260). -/
def resetClears (i : Fin 64) : Bool := decide (i.val ≤ 38) || (decide (47 ≤ i.val) && decide (i.val ≤ 49))

/-- The register bank with its subrange zeroed (R260). -/
def clearRegs (r : Regs) : Regs := Vector.ofFn fun i => if resetClears i then 0 else reg r i

/-- `ResetOp()` of R260: R39 to R46, R50 to R63 and the beam are unchanged and nothing is emitted. -/
def State.resetOp (s : State) : State :=
  { s with
    ports := Vector.replicate 8 0
    regs := clearRegs s.regs
    pnt := [], sat := [], scrA := [], scrB := [], cram := []
    phR := 0, phW := 0, subR := 0, subW := 0 }

/-- POWERON, device initialisation (R262): every piece of state of 10_state.md becomes 0 and nothing is emitted. The
host's pending words, the count of draws and the parameters are no state of the block and stay (logs 1, 3, 4). -/
def execPowerOn (s : State) : Host.Outcome State Fault Refusal :=
  .next { State.reset with input := s.input, draws := s.draws, config := s.config }

end Sys2Proof.Machine
end

