-- ==== Sys2Proof/Machine/StatusControl.lean ====
section
/-! DEFINITION. The status and system control ports, ports 6 and 7: R160 to R163 of 42_status_control.md. -/
namespace Sys2Proof.Machine

/-- OUT P6, status clear (R160); the byte itself is not stored. -/
def execOutP6 (v : Byte) (s : State) : Host.Outcome State Fault Refusal := .next (s.quiet.statusClear v)

/-- IN P6, status read (R161): reading does not acknowledge. -/
def execInP6 (s : State) : Host.Outcome State Fault Refusal := .next (s.quiet.reply (s.P 6))

/-- OUT P7, system control write (R162): a 1 in bit 0 runs the reset operation. -/
def execOutP7 (v : Byte) (s : State) : Host.Outcome State Fault Refusal :=
  .next (if bit v 0 then s.quiet.resetOp else s.quiet.setP 7 v)

/-- IN P7, system control read (R163). -/
def execInP7 (s : State) : Host.Outcome State Fault Refusal := .next (s.quiet.reply (s.P 7))

end Sys2Proof.Machine
end

