-- ==== Sys2Proof/Machine/Dispatch.lean ====
section
/-! DEFINITION. One arm per row of spec/opcode_table.json, each a direct call of that transaction's meaning. -/
namespace Sys2Proof.Machine

def exec (i : Instr) (s : State) : Host.Outcome State Fault Refusal :=
  match i with
  | .outP0 v => Sys2Proof.Machine.execOutP0 v s
  | .outP1 v => Sys2Proof.Machine.execOutP1 v s
  | .outP2 v => Sys2Proof.Machine.execOutP2 v s
  | .outP3 v => Sys2Proof.Machine.execOutP3 v s
  | .outP4 v => Sys2Proof.Machine.execOutP4 v s
  | .outP5 v => Sys2Proof.Machine.execOutP5 v s
  | .outP6 v => Sys2Proof.Machine.execOutP6 v s
  | .outP7 v => Sys2Proof.Machine.execOutP7 v s
  | .inP0 => Sys2Proof.Machine.execInP0 s
  | .inP1 => Sys2Proof.Machine.execInP1 s
  | .inP2 => Sys2Proof.Machine.execInP2 s
  | .inP3 => Sys2Proof.Machine.execInP3 s
  | .inP4 => Sys2Proof.Machine.execInP4 s
  | .inP5 => Sys2Proof.Machine.execInP5 s
  | .inP6 => Sys2Proof.Machine.execInP6 s
  | .inP7 => Sys2Proof.Machine.execInP7 s
  | .tick => Sys2Proof.Machine.execTick s
  | .powerOn => Sys2Proof.Machine.execPowerOn s

end Sys2Proof.Machine
end

