-- ==== Sys2Proof/Machine/Step.lean ====
section
/-! DEFINITION. One step: the host's next transaction word, decoded and run (R6 of 00_scope.md, R90 of 20_memory.md). -/
namespace Sys2Proof.Machine

/-- One step. The oldest pending word is taken, decoded (R104) and run; a reserved word is refused (R105). While the
host drives nothing the block keeps all its state (R254 of 60_exceptions.md; log 1). -/
def step (s : State) : Host.Outcome State Fault Refusal :=
  match s.fetch with
  | none => .next s
  | some (w, t) =>
    match decode w with
    | .ok i => exec i t
    | .error (.reservedAction code) => .refused (.reservedAction code)

/-- The state in which the host's next word is the given table word: it is put before the words already pending. -/
def State.withFetchWord (s : State) (nbits w : Nat) : State := { s with input := tableWord nbits w :: s.input }

end Sys2Proof.Machine
end

