-- ==== Sys2Proof/Machine/TileResolver.lean ====
section
/-! DEFINITION. The tilemap address resolver: R170 to R182 of 43_tile_resolver.md, a pure function of the state. -/
namespace Sys2Proof.Machine

/-- What the resolver returns for a cell, and the anomalies it emits (R170). -/
structure TileInfo where
  code : Nat
  colour : Nat
  flipx : Bool
  flipy : Bool
  anomalies : List Anomaly
  deriving DecidableEq, Repr

/-- A 16-bit little-endian value of a plane's scroll table, low byte at the even offset (R82, R176). -/
def State.scrWord (s : State) (p : Plane) (off : Nat) : Nat :=
  (s.memRead (.scr p (BitVec.ofNat 8 off))).toNat + 256 * (s.memRead (.scr p (BitVec.ofNat 8 (off + 1)))).toNat

/-- `VS[p][k]`, the vertical fine scroll of column group k, k = 0..63 (R176). -/
def State.vs (s : State) (p : Plane) (k : Nat) : Nat := s.scrWord p (2 * k)

/-- `HS[p]`, the horizontal scroll of the plane (R176). -/
def State.hs (s : State) (p : Plane) : Nat := s.scrWord p 0x80

/-- `PS[p][n]`, the page-select byte of page n, n = 0..63 (R176). -/
def State.ps (s : State) (p : Plane) (n : Nat) : Nat := (s.memRead (.scr p (BitVec.ofNat 8 (0xC0 + n)))).toNat

/-- `ColumnVScroll(p, c)` of R177 and the anomalies it emits. -/
def State.columnVScroll (s : State) (p : Plane) (c : Nat) : Nat × List Anomaly :=
  if sdv s.regs = 0 then (s.vs p 0, [])
  else if sdv s.regs = 1 then (s.vs p (c % 64), [])
  else (s.vs p 0, [.scrollDiv (sdv s.regs)])

/-- The page number n of R178, 0..63. -/
def State.pageNumber (s : State) (p : Plane) : Nat :=
  let r := s.regs
  let pageX := (s.hs p >>> (Dec.log2W r + Dec.tileShift r)) % 8
  let pageY := (s.vs p 0 >>> (Dec.log2H r + Dec.tileShift r)) % 8
  pageY * 8 + pageX

/-- b0 of R172. -/
def State.pnByte0 (s : State) (p : Plane) (row col : Nat) : Byte := s.memRead (pnLoc s.regs p row col 0)

/-- b1 of R172: 0 in the one-byte mode. -/
def State.pnByte1 (s : State) (p : Plane) (row col : Nat) : Byte :=
  if Dec.pnBytes s.regs = 2 then s.memRead (pnLoc s.regs p row col 1) else 0

/-- The raw code of R173: 8 bits in the one-byte mode, 12 bits otherwise. -/
def rawCode (r : Regs) (b0 b1 : Byte) : Nat := if Dec.pnBytes r = 1 then b0.toNat else b0.toNat + (bits b1 0 4 <<< 8)

/-- The vertical band of a row, 0..7 (R175). -/
def bandOf (r : Regs) (row : Nat) : Fin 8 := Fin.ofNat 8 ((row % Dec.H r) >>> Dec.baseYShift r)

/-- `codeB` of R175: the raw code with the base of the band above it. -/
def basedCode (r : Regs) (p : Plane) (row : Nat) (b0 b1 : Byte) : Nat :=
  rawCode r b0 b1 + (base r p (bandOf r row) <<< if Dec.pnBytes r = 1 then 8 else 12)

/-- Whether the flip flags come from the second byte (R174). -/
def flipsOn (r : Regs) : Bool := flip r && Dec.pnBytes r == 2

/-- The colour of R179, from the code before page and board offsets. -/
def tileColour (r : Regs) (codeB : Nat) (b1 : Byte) : Nat :=
  if tcfe r then (codeB >>> tcfs r) % 16
  else if Dec.col16 r && Dec.pnBytes r == 2 then bits b1 4 4
  else 0

/-- The clamp limit of R180. -/
def tileLimit (c : Config) (r : Regs) : Nat := if pts r then c.numTiles16 else c.numTiles8

/-- The code of R180 before the clamp: page and board offsets added. -/
def State.pagedCode (s : State) (p : Plane) (row col : Nat) : Nat :=
  basedCode s.regs p row (s.pnByte0 p row col) (s.pnByte1 p row col) + (s.ps p (s.pageNumber p) <<< s.config.pageCodeShift) +
    s.config.boardBankOffset

/-- `TileInfo(p, row, col)` of R180; plane B in a single-plane mode is R181. The clamp keeps colour and flips. -/
def State.tileInfo (s : State) (p : Plane) (row col : Nat) : TileInfo :=
  if p == .B && !Dec.planeBEnabled s.regs then
    { code := 0, colour := 0, flipx := false, flipy := false, anomalies := [] }
  else
    let b1 := s.pnByte1 p row col
    let code := s.pagedCode p row col
    let out := decide (code ≥ tileLimit s.config s.regs)
    { code := if out then 0 else code
      colour := tileColour s.regs (basedCode s.regs p row (s.pnByte0 p row col) b1) b1
      flipx := flipsOn s.regs && bit b1 6
      flipy := flipsOn s.regs && bit b1 7
      anomalies := if out then [.tileCodeRange p row col (md s.regs)] else [] }

end Sys2Proof.Machine
end

