-- ==== Sys2Proof/Machine/Roz.lean ====
section
/-! DEFINITION. The ROZ affine coordinate transformer and the axis-aligned mapping it replaces: R210 to R215 of
45_roz.md, pure functions of the state. -/
namespace Sys2Proof.Machine

/-- u of R213, in units of 2^-ROZ_FRAC dot, exact. -/
def rozU (r : Regs) (sx sy : Int) : Int := Dec.AX r + sx * Dec.DX r + sy * Dec.DXY r

/-- v of R213. -/
def rozV (r : Regs) (sx sy : Int) : Int := Dec.AY r + sx * Dec.DYX r + sy * Dec.DY r

/-- `RozMap(sx, sy)` of R213: floor to dots, then wrap on the page. The divisors are positive, so `/` floors and `%` is
the mathematical modulus (R9 of 00_scope.md). -/
def rozMap (c : Config) (r : Regs) (sx sy : Int) : Int × Int :=
  (rozU r sx sy / 2 ^ c.rozFrac % Dec.pageDotsW r, rozV r sx sy / 2 ^ c.rozFrac % Dec.pageDotsH r)

/-- The axis-aligned mapping of R214, for plane p, with the anomalies of `ColumnVScroll`. -/
def State.blitMap (s : State) (p : Plane) (sx sy : Int) : (Int × Int) × List Anomaly :=
  let x := (sx + s.hs p) % Dec.pageDotsW s.regs
  let col := x.toNat >>> Dec.tileShift s.regs
  let vs := s.columnVScroll p col
  ((x, (sy + vs.1) % Dec.pageDotsH s.regs), vs.2)

/-- What display dot (sx, sy) samples of plane p: plane A goes through the ROZ map when R7.ROZE = 1 and takes no
scroll then; otherwise the mapping is axis-aligned (R213, R214). -/
def State.sampleMap (s : State) (p : Plane) (sx sy : Int) : (Int × Int) × List Anomaly :=
  if roze s.regs && p == .A then (rozMap s.config s.regs sx sy, []) else s.blitMap p sx sy

end Sys2Proof.Machine
end

