-- ==== Sys2Proof/Machine/SpriteIterator.lean ====
section
/-! DEFINITION. The sprite attribute iterator: R190 to R198 of 44_sprite_iterator.md, a pure function of the state. -/
namespace Sys2Proof.Machine

/-- One draw of the list of R197. -/
structure Draw where
  n : Nat
  code : Nat
  colour : Nat
  flipx : Bool
  flipy : Bool
  d : Nat
  px : Int
  py : Int
  deriving DecidableEq, Repr

/-- Byte k of sprite attribute entry n, `SAT[4n + k]` (R190). A table of more than 256 bytes has bytes beyond the one-byte
cursor R3; nothing ever writes them, so they hold their power-on value 0x00 (R29, R36; log 10). -/
def State.satByte (s : State) (n k : Nat) : Byte :=
  if 4 * n + k < 256 then s.memRead (.sat (BitVec.ofNat 8 (4 * n + k))) else 0

/-- SN of entry n (R190). -/
def State.sprSN (s : State) (n : Nat) : Nat := (s.satByte n 0).toNat
/-- SAUX of entry n (R190). -/
def State.sprAux (s : State) (n : Nat) : Nat := bits (s.satByte n 3) 2 2
/-- SC of entry n (R190). -/
def State.sprSC (s : State) (n : Nat) : Nat := bits (s.satByte n 3) 4 4
/-- x of entry n: SX8 above SX (R191). -/
def State.sprX (s : State) (n : Nat) : Nat := 256 * bits (s.satByte n 3) 0 1 + (s.satByte n 1).toNat
/-- y of entry n: SY8 above SY (R191). -/
def State.sprY (s : State) (n : Nat) : Nat := 256 * bits (s.satByte n 3) 1 1 + (s.satByte n 2).toNat

/-- The size code of entry n (R192): SAUX when SPAS = 0, SGA when SPAS = 1. -/
def State.sprSize (s : State) (n : Nat) : Fin 4 := Fin.ofNat 4 (if spas s.regs then sga s.regs else s.sprAux n)

/-- The flip bits of entry n (R192): SGA when SPAS = 0, SAUX when SPAS = 1; bit 0 is x and bit 1 is y. -/
def State.sprFlip (s : State) (n : Nat) : Nat := if spas s.regs then s.sprAux n else sga s.regs

/-- The side of a sprite of size code sz, in dots (R192). -/
def sprDots (sz : Fin 4) : Nat := 8 <<< sz.val

/-- The bank of R193: the size-dependent shift and mask of R6.SBA. -/
def sprBank (r : Regs) (sz : Fin 4) : Nat := (sba r >>> (2 * sz.val)) % 2 ^ (6 - 2 * sz.val)

/-- `codeFull` of R193. -/
def State.sprCode (s : State) (n : Nat) : Nat := (sprBank s.regs (s.sprSize n) <<< 8) + s.sprSN n

/-- The colour of R194, from the code before the clamp. -/
def State.sprColour (s : State) (n : Nat) : Nat :=
  if scfe s.regs then (s.sprCode n >>> (s.config.sprCfShift[(s.sprSize n).val])[(Fin.ofNat 4 (scfs s.regs)).val]) % 16
  else s.sprSC n

/-- Whether the code of entry n is out of range (R195). -/
def State.sprOut (s : State) (n : Nat) : Bool :=
  decide (s.sprCode n ≥ s.config.numSpr[(s.sprSize n).val])

/-- `Copies(x, y, d)` of R196: the sprite and its wrapped copies on the 512x512 torus. -/
def copies (x y d : Nat) : List (Int × Int) :=
  let wx := decide (x > 512 - d)
  let wy := decide (y > 512 - d)
  [((x : Int), (y : Int))] ++ (if wx then [((x : Int) - 512, (y : Int))] else []) ++
    (if wy then [((x : Int), (y : Int) - 512)] else []) ++
    (if wx && wy then [((x : Int) - 512, (y : Int) - 512)] else [])

/-- The draws of entry n (R190 to R196). -/
def State.sprDraws (s : State) (n : Nat) : List Draw :=
  let d := sprDots (s.sprSize n)
  (copies (s.sprX n) (s.sprY n) d).map fun p =>
    { n := n
      code := if s.sprOut n then 0 else s.sprCode n
      colour := s.sprColour n
      flipx := (s.sprFlip n).testBit 0
      flipy := (s.sprFlip n).testBit 1
      d := d
      px := p.1
      py := p.2 }

/-- The entries in reverse index order: 63 down to 0 at the default SAT_BYTES (R190, R197). DESIGN CHOICE (log 11): the
spec gives no count for another SAT_BYTES (R8); here it is SAT_BYTES / 4, and rounded down, so the bytes of an incomplete
last entry are in no listed entry. -/
def sprOrder (c : Config) : List Nat := (List.range (c.satBytes / 4)).reverse

/-- Sprites are skipped entirely when the display is off or sprites are disabled (R197). -/
def sprShown (r : Regs) : Bool := dspe r && !spd r

/-- `SpriteList()` of R197, drawn first to last. -/
def State.spriteList (s : State) : List Draw :=
  if sprShown s.regs then (sprOrder s.config).flatMap s.sprDraws else []

/-- The anomalies `SpriteList()` emits (R195), in the order of the entries. -/
def State.spriteAnomalies (s : State) : List Anomaly :=
  if sprShown s.regs then
    (sprOrder s.config).flatMap fun n => if s.sprOut n then [.spriteCodeRange n (s.sprCode n)] else []
  else []

end Sys2Proof.Machine
end

