-- ==== Sys2Proof/Safety.lean ====
section
/-! DEFINITION. What holds of every state a run can reach, and the words the statements use for what a transaction
leaves as it was. -/
namespace Sys2Proof.Machine

/-- Every table is in canonical form and lists only addresses that exist (R29 of 10_state.md, R80 of 20_memory.md): the
key 4 * i + 3 of the palette names no component. -/
def State.tablesOk (s : State) : Bool :=
  Memory.wf 4096 s.pnt && Memory.wf (min 256 s.config.satBytes) s.sat && Memory.wf 256 s.scrA && Memory.wf 256 s.scrB &&
    Memory.wf (4 * min 256 s.config.palN) s.cram && s.cram.all fun c => c.1 % 4 != 3

/-- P6 bits 7:2 are always 0 (R24 of 10_state.md) and P7 bit 0 reads 0 always (R163 of 42_status_control.md). -/
def State.latchesOk (s : State) : Bool := decide ((s.P 6).toNat < 4) && !bit (s.P 7) 0

/-- The invariant of the block. -/
abbrev State.Inv (s : State) : Prop := s.tablesOk = true ∧ s.latchesOk = true

/-- The beam is below the totals of the current geometry (R251 of 60_exceptions.md). -/
abbrev State.beamInside (s : State) : Prop :=
  s.hpos.toNat < Dec.htotal s.config s.regs ∧ s.vpos.toNat < Dec.vtotal s.regs

/-- The dot of the frame the beam is at, counted line by line. -/
def State.beamIndex (s : State) : Nat := s.vpos.toNat * Dec.htotal s.config s.regs + s.hpos.toNat

/-- A sequence of transactions run one after another; it stops at the first that gives no next state. -/
def execAll : List Instr → State → Host.Outcome State Fault Refusal
  | [], s => .next s
  | i :: is, s =>
    match exec i s with
    | .next t => execAll is t
    | .fault f => .fault f
    | .refused r => .refused r

/-- n TICKs (`TICK n` of R109, 30_encoding.md). -/
def ticks (n : Nat) : List Instr := List.replicate n .tick

/-- `SETPN pl, row, col` of R109 as transactions: the cursor registers R0 and R1 are written, which restarts both
phases. -/
def setPn (pl : BitVec 1) (row col : BitVec 6) : List Instr :=
  [.outP5 0, .outP4 (0#1 ++ pl ++ row : BitVec (1 + 1 + 6)), .outP5 1, .outP4 (0#2 ++ col : BitVec (2 + 6))]

/-- Where the scroll port stands among the 512 bytes of both planes. -/
def scrollIndex (r : Regs) : Nat := 256 * (scb r).toNat + (scp r).toNat

/-- Register i is one the reset operation zeroes: 0 to 38 and 47 to 49 (R260 of 70_reset_and_hazards.md). -/
abbrev Cleared (i : Fin 64) : Prop := i.val ≤ 38 ∨ 47 ≤ i.val ∧ i.val ≤ 49

/-- Every register but those listed is as it was. -/
def SameRegs (except : List (Fin 64)) (s t : State) : Prop := ∀ i, i ∉ except → t.R i = s.R i

/-- Every port latch but those listed is as it was. -/
def SamePorts (except : List (Fin 8)) (s t : State) : Prop := ∀ j, j ∉ except → t.P j = s.P j

/-- Every table byte but those listed reads as it did. -/
def SameTables (except : List Loc) (s t : State) : Prop := ∀ l, l ∉ except → t.memRead l = s.memRead l

/-- Both pattern-name phases are as they were. -/
def SamePhases (s t : State) : Prop := t.phR = s.phR ∧ t.phW = s.phW

/-- Both palette sub-counters are as they were. -/
def SameSubs (s t : State) : Prop := t.subR = s.subR ∧ t.subW = s.subW

/-- The beam is where it was. -/
def SameBeam (s t : State) : Prop := t.hpos = s.hpos ∧ t.vpos = s.vpos

/-- No draw was made and the host's pending words are as they were. -/
def SameInput (s t : State) : Prop := t.draws = s.draws ∧ t.input = s.input

/-- The transaction returned no byte and emitted no event. -/
def Silent (t : State) : Prop := t.outByte = none ∧ t.outEvents = []

/-- The transaction returned the byte r and emitted no event. -/
def Replies (r : Byte) (t : State) : Prop := t.outByte = some r ∧ t.outEvents = []

end Sys2Proof.Machine
end

