-- ==== Sys2Proof/Certificates/Slice0/Obligations.lean ====
section
/-! DEFINITION. The statements for the provers, from the numbered rules of spec/. -/
open Sys2Proof Sys2Proof.Machine

/-! ## Encoding and the step -/

/-- R103, R104, R106 (30_encoding.md): decoding an encoded transaction gives it back, whatever its byte, and a word
decodes to a transaction exactly when it agrees with its encoding on the bits that are not ignored. -/
def Obligations.DecodeEncodeRoundTrip : Prop :=
  (∀ i : Instr, i.wf = true → decode (encode i) = .ok i) ∧
  (∀ (w : TWord) (i : Instr), decode w = .ok i ↔ w &&& careMask i = encode i)

/-- R105 (30_encoding.md): a word is rejected exactly when it is a host action with code 2 to 15, and the step refuses
it by that code. -/
def Obligations.ReservedActionsAreRefused : Prop :=
  ∀ (w : TWord) (code : BitVec 4),
    (decode w = .error (.reservedAction code) ↔ w.getLsbD 12 = true ∧ wordCode w = code ∧ 2 ≤ code.toNat) ∧
    ∀ (s : State) (rest : List TWord), s.input = w :: rest → decode w = .error (.reservedAction code) →
      step s = .refused (.reservedAction code)

/-- V-DEC-1 to V-DEC-7 of 95_test_vectors.md: words written out from R100 and R103. -/
def Obligations.SampleWordsDecode : Prop :=
  decode 0b0000000000000 = .ok (.outP0 0x00) ∧ decode 0b0111111110111 = .ok (.outP7 0xFF) ∧
  decode 0b0111111111000 = .ok .inP0 ∧ decode 0b0000000001101 = .ok .inP5 ∧
  decode 0b1000000000000 = .ok .tick ∧ decode 0b1111111110000 = .ok .tick ∧ decode 0b1000000000001 = .ok .powerOn

/-- A step runs the transaction the host's oldest word decodes to, on the state without that word; `withFetchWord`
places exactly that word; with no word pending the state is kept (the model's choice, log 1). -/
def Obligations.StepRunsTheDecodedWord : Prop :=
  (∀ (s : State) (w : TWord) (rest : List TWord) (i : Instr), s.input = w :: rest → decode w = .ok i →
    step s = exec i { s with input := rest }) ∧
  (∀ (i : Instr) (s : State), step (s.withFetchWord 16 (encode i).toNat) = exec i s) ∧
  (∀ s : State, s.input = [] → step s = .next s)

/-- R108 (30_encoding.md): a well-formed line is some transaction, its word is that transaction's encoding, and the
line of a transaction reads back as it; an ill-formed line is none. -/
def Obligations.AssemblerLinesEncode : Prop :=
  (∀ a : Asm, a.wf = true → ∃ i : Instr, a.instr = some i ∧ (encode i).toNat = a.word) ∧
  (∀ i : Instr, (Asm.ofInstr i).instr = some i) ∧
  (∀ a : Asm, a.wf = false → a.instr = none)

/-- R109 (30_encoding.md): the transactions each pseudo-instruction expands to, and that every line of its expansion
is well formed. The hypothesis `Pseudo.wf` is the model's: R109 writes out no operand ranges, and log 9 settles them. -/
def Obligations.PseudoExpansionsAreWellFormed : Prop :=
  ∀ p : Pseudo, p.wf = true →
    (∀ a ∈ p.expand, a.wf = true) ∧
    p.instrs = some (
      match p with
      | .selr a ari awi => [.outP5 (BitVec.ofNat 8 (128 * awi + 64 * ari + a))]
      | .wreg a v => [.outP5 (BitVec.ofNat 8 a), .outP4 (BitVec.ofNat 8 v)]
      | .wregs a vs => .outP5 (BitVec.ofNat 8 (128 + a)) :: vs.map fun v => .outP4 (BitVec.ofNat 8 v)
      | .rreg a => [.outP5 (BitVec.ofNat 8 a), .inP4]
      | .setpn pl row col =>
        [.outP5 0, .outP4 (BitVec.ofNat 8 (64 * pl + row)), .outP5 1, .outP4 (BitVec.ofNat 8 col)]
      | .setpal i r g b =>
        [.outP5 5, .outP4 (BitVec.ofNat 8 i), .outP3 (BitVec.ofNat 8 r), .outP3 (BitVec.ofNat 8 g),
          .outP3 (BitVec.ofNat 8 b)]
      | .ack m => [.outP6 (BitVec.ofNat 8 m)]
      | .reset => [.outP7 1]
      | .tick n => List.replicate n .tick)

/-- R109, R20, R90: `WREG a, v` leaves R[a] = v and P5 = a with both flags 0, changes no other register, and a later
`RREG a` returns v. -/
def Obligations.WriteRegisterThenReadReturnsByte : Prop :=
  ∀ (a : BitVec 6) (v : Byte) (s : State), ∃ (wr rd : List Instr) (t u : State),
    (Pseudo.wreg a.toNat v.toNat).instrs = some wr ∧ (Pseudo.rreg a.toNat).instrs = some rd ∧
    execAll wr s = .next t ∧ t.R a.toFin = v ∧ t.P 5 = a.setWidth 8 ∧ SameRegs [a.toFin] s t ∧
    execAll rd t = .next u ∧ u.outByte = some v ∧ SameRegs [] t u

/-! ## Completion -/

/-- R107, R240: every transaction completes for every data byte and every state; a step stops only on a reserved host
action code. -/
def Obligations.EveryTransactionCompletes : Prop :=
  (∀ (i : Instr) (s : State), ∃ t, exec i s = .next t) ∧
  (∀ s : State, (∃ t, step s = .next t) ∨ ∃ code : BitVec 4, 2 ≤ code.toNat ∧ step s = .refused (.reservedAction code))

/-! ## Reset and power-on -/

/-- R263 (70_reset_and_hazards.md), power-on column: the initial state. -/
def Obligations.ResetStateIsAllZero : Prop :=
  (∀ i, State.reset.R i = 0) ∧ (∀ j, State.reset.P j = 0) ∧ (∀ l, State.reset.memRead l = 0) ∧
  State.reset.phR = 0 ∧ State.reset.phW = 0 ∧ State.reset.subR = 0 ∧ State.reset.subW = 0 ∧
  State.reset.hpos = 0 ∧ State.reset.vpos = 0 ∧ State.reset.irqV = false ∧ State.reset.irqR = false

/-- R262 (70_reset_and_hazards.md): POWERON zeroes every piece of state and emits nothing; the state after it is the
initial state. -/
def Obligations.PowerOnZeroesEverything : Prop :=
  ∀ s : State, ∃ t, exec .powerOn s = .next t ∧
    (∀ i, t.R i = 0) ∧ (∀ j, t.P j = 0) ∧ (∀ l, l.present s.config = true → t.memRead l = 0) ∧
    t.phR = 0 ∧ t.phW = 0 ∧ t.subR = 0 ∧ t.subW = 0 ∧ t.hpos = 0 ∧ t.vpos = 0 ∧ t.save = State.reset.save ∧
    Silent t ∧ SameInput s t

/-- R162 (42_status_control.md), R260 (70_reset_and_hazards.md): a byte with bit 0 set runs the reset operation, which
zeroes the ports, R0 to R38, R47 to R49, the tables, the phases and the sub-counters, leaves R39 to R46, R50 to R63
and the beam, and emits nothing; any other byte is stored in P7 and nothing else changes. -/
def Obligations.SystemControlWriteResetsOrStores : Prop :=
  ∀ (v : Byte) (s : State), ∃ t, exec (.outP7 v) s = .next t ∧ Silent t ∧ SameBeam s t ∧ SameInput s t ∧
    (bit v 0 = true →
      (∀ j, t.P j = 0) ∧ (∀ i, Cleared i → t.R i = 0) ∧ (∀ i, ¬Cleared i → t.R i = s.R i) ∧
      (∀ l, l.present s.config = true → t.memRead l = 0) ∧ t.phR = 0 ∧ t.phW = 0 ∧ t.subR = 0 ∧ t.subW = 0) ∧
    (bit v 0 = false →
      t.P 7 = v ∧ SamePorts [7] s t ∧ SameRegs [] s t ∧ SameTables [] s t ∧ SamePhases s t ∧ SameSubs s t)

/-- R261 (70_reset_and_hazards.md): two reset operations leave the state of one, whatever the rest of their bytes. -/
def Obligations.ResetOperationIsIdempotent : Prop :=
  ∀ (v w : Byte) (s : State), bit v 0 = true → bit w 0 = true →
    ∃ t, exec (.outP7 v) s = .next t ∧ execAll [.outP7 v, .outP7 w] s = .next t

/-- R261 (70_reset_and_hazards.md): after the reset operation `RREG i` returns 0 for every i in 0..38 and 47..49 and
the register's old byte for the others. -/
def Obligations.RegistersReadBackAfterReset : Prop :=
  ∀ (v : Byte) (a : BitVec 6) (s : State), bit v 0 = true →
    ∃ t, execAll [.outP7 v, .outP5 (a.setWidth 8), .inP4] s = .next t ∧
      (Cleared a.toFin → t.outByte = some 0) ∧ (¬Cleared a.toFin → t.outByte = some (s.R a.toFin))

/-! ## Register select and register data ports -/

/-- R120 (40_register_port.md): OUT P5 stores the byte in P5 (ADDR, ARI, AWI) and changes nothing else. -/
def Obligations.RegisterSelectWriteSetsTheLatch : Prop :=
  ∀ (v : Byte) (s : State), ∃ t, exec (.outP5 v) s = .next t ∧
    t.P 5 = v ∧ t.addr = low6 v ∧ t.ari = bit v 6 ∧ t.awi = bit v 7 ∧
    SamePorts [5] s t ∧ SameRegs [] s t ∧ SameTables [] s t ∧ SamePhases s t ∧ SameSubs s t ∧ SameBeam s t ∧
    SameInput s t ∧ Silent t

/-- R121 (40_register_port.md), R161 and R163 (42_status_control.md): a read of port 5, 6 or 7 returns the latch and
changes nothing. On states with legal latches the status byte has bits 7:2 zero (R161) and the control byte bit 0
zero, which is the sentence of R163 the spec marks as derived from R162: "bit 0 reads 0 always after any write". -/
def Obligations.LatchReadsHaveNoSideEffect : Prop :=
  ∀ s : State,
    (∀ i ∈ [(Instr.inP5, (5 : Fin 8)), (Instr.inP6, (6 : Fin 8)), (Instr.inP7, (7 : Fin 8))],
      ∃ t, exec i.1 s = .next t ∧ Replies (s.P i.2) t ∧ SamePorts [] s t ∧ SameRegs [] s t ∧ SameTables [] s t ∧
        SamePhases s t ∧ SameSubs s t ∧ SameBeam s t ∧ SameInput s t) ∧
    (s.latchesOk = true → (∀ k, 2 ≤ k → bit (s.P 6) k = false) ∧ bit (s.P 7) 0 = false)

/-- R122 (40_register_port.md): OUT P4 writes R[P5.ADDR] and P4, restarts the pattern-name phases for R0 and R1 and
the palette sub-counters for R5, and advances P5.ADDR modulo 64 exactly when AWI is set. -/
def Obligations.RegisterDataWriteEffect : Prop :=
  ∀ (v : Byte) (s : State), ∃ t, exec (.outP4 v) s = .next t ∧
    t.R s.addr.toFin = v ∧ SameRegs [s.addr.toFin] s t ∧
    t.P 4 = v ∧ SamePorts [4, 5] s t ∧
    t.addr.toNat = (if s.awi then (s.addr.toNat + 1) % 64 else s.addr.toNat) ∧ t.ari = s.ari ∧ t.awi = s.awi ∧
    (s.addr = 0 ∨ s.addr = 1 → t.phR = 0 ∧ t.phW = 0) ∧ (s.addr ≠ 0 → s.addr ≠ 1 → SamePhases s t) ∧
    (s.addr = 5 → t.subR = 0 ∧ t.subW = 0) ∧ (s.addr ≠ 5 → SameSubs s t) ∧
    SameTables [] s t ∧ SameBeam s t ∧ SameInput s t ∧ Silent t

/-- R123 (40_register_port.md): IN P4 returns R[P5.ADDR] and advances P5.ADDR modulo 64 exactly when ARI is set; it
restarts no phase and no sub-counter. -/
def Obligations.RegisterDataReadEffect : Prop :=
  ∀ s : State, ∃ t, exec .inP4 s = .next t ∧ Replies (s.R s.addr.toFin) t ∧
    SamePorts [5] s t ∧
    t.addr.toNat = (if s.ari then (s.addr.toNat + 1) % 64 else s.addr.toNat) ∧ t.ari = s.ari ∧ t.awi = s.awi ∧
    SameRegs [] s t ∧ SameTables [] s t ∧ SamePhases s t ∧ SameSubs s t ∧ SameBeam s t ∧ SameInput s t

/-! ## Pattern-name port -/

/-- R131 (41_data_ports.md): the address of byte b of a cell, for every mode; in single-plane modes the plane is
ignored, and in the one-byte mode the byte is. The port reaches it at the cursor R0.PNB, R0.PNY, R1.PNX. -/
def Obligations.PatternNameAddressFormula : Prop :=
  (∀ (r : Regs) (pl : Plane) (row col b : Nat), b < 2 →
    pnAddr r pl row col b =
      (if md r < 2 ∧ pl = .B then 2048 else 0) +
        (row % Dec.H r * Dec.W r + col % Dec.W r) * (if md r = 0 then 1 else 2) + (if md r = 0 then 0 else b) ∧
    pnAddr r pl row col b < 4096) ∧
  (∀ (s : State) (phase : Fin 2), ∃ a : BitVec 12, s.pnPortLoc phase = .pnt a ∧
    a.toNat = pnAddr s.regs (if bit (s.R 0) 6 then .B else .A) ((s.R 0).toNat % 64) ((s.R 1).toNat % 64) phase.val)

/-- R131 (41_data_ports.md), its injectivity, which the spec derives: for a fixed mode, distinct cells and bytes of
the mode's planes have distinct addresses, and every address 0..4095 is reached. -/
def Obligations.PatternNameAddressIsABijection : Prop :=
  ∀ r : Regs,
    (∀ (p q : Plane) (y x b y' x' b' : Nat), (p = .B → Dec.twoPlane r = true) → (q = .B → Dec.twoPlane r = true) →
      y < Dec.H r → x < Dec.W r → b < Dec.pnBytes r → y' < Dec.H r → x' < Dec.W r → b' < Dec.pnBytes r →
      pnAddr r p y x b = pnAddr r q y' x' b' → p = q ∧ y = y' ∧ x = x' ∧ b = b') ∧
    (∀ a < 4096, ∃ (p : Plane) (y x b : Nat), (p = .B → Dec.twoPlane r = true) ∧ y < Dec.H r ∧ x < Dec.W r ∧
      b < Dec.pnBytes r ∧ pnAddr r p y x b = a)

/-- R132 (41_data_ports.md): where the pattern-name cursor goes when a phase wraps, in each of the four settings of
the autoincrement flags; the reserved bits of R0 and R1 and every other register stay. With both flags set the cursor
is the free one of the next draw, whatever it is: the indexed free value is the model's form of the rule's draw (log
3). -/
def Obligations.PatternNameCursorAdvances : Prop :=
  ∀ s t : State, t = s.pnAdvance →
    let x := (pnx s.regs).toNat
    let y := (pny s.regs).toNat
    SameRegs [0, 1] s t ∧ bit (t.R 0) 7 = bit (s.R 0) 7 ∧
    bit (t.R 1) 6 = bit (s.R 1) 6 ∧ bit (t.R 1) 7 = bit (s.R 1) 7 ∧
    (pxi s.regs = true → pyi s.regs = true →
      pny t.regs = Config.freePNY s.draws ∧ pnx t.regs = Config.freePNX s.draws ∧
      pnb t.regs = Config.freePNB s.draws ∧ t.draws = s.draws + 1 ∧
      t.outEvents = s.outEvents ++ [.anomaly (.pnXYAutoInc (s.R 0) (s.R 1) (s.R 2))]) ∧
    (¬(pxi s.regs = true ∧ pyi s.regs = true) → t.draws = s.draws ∧ t.outEvents = s.outEvents) ∧
    (pxi s.regs = true → pyi s.regs = false →
      (pnx t.regs).toNat = (if x + 1 < Dec.W s.regs then x + 1 else 0) ∧
      (pny t.regs).toNat = (if x + 1 < Dec.W s.regs then y else if y + 1 < Dec.H s.regs then y + 1 else 0) ∧
      pnb t.regs = (if x + 1 < Dec.W s.regs ∨ y + 1 < Dec.H s.regs then pnb s.regs else !pnb s.regs)) ∧
    (pxi s.regs = false → pyi s.regs = true →
      (pny t.regs).toNat = (if y + 1 < Dec.H s.regs then y + 1 else 0) ∧
      (pnx t.regs).toNat = (if y + 1 < Dec.H s.regs then x else if x + 1 < Dec.W s.regs then x + 1 else 0) ∧
      pnb t.regs = (if y + 1 < Dec.H s.regs ∨ x + 1 < Dec.W s.regs then pnb s.regs else !pnb s.regs)) ∧
    (pxi s.regs = false → pyi s.regs = false → SameRegs [] s t)

/-- R134 (41_data_ports.md): OUT P0 stores the byte at `PNAddr(R0.PNB, R0.PNY, R1.PNX, phW)` and in P0 and steps phW
by 2 in the one-byte mode and by 1 otherwise; on a wrap phW is 0 and the cursor advances as R132 says. -/
def Obligations.PatternNameWriteEffect : Prop :=
  ∀ (v : Byte) (s : State), ∃ t, exec (.outP0 v) s = .next t ∧
    t.P 0 = v ∧ SamePorts [0] s t ∧
    t.memRead (s.pnPortLoc s.phW) = v ∧ SameTables [s.pnPortLoc s.phW] s t ∧
    (s.phW = 0 → Dec.pnBytes s.regs = 2 →
      t.phW = 1 ∧ SameRegs [] s t ∧ t.draws = s.draws ∧ t.outEvents = []) ∧
    (s.phW = 1 ∨ Dec.pnBytes s.regs = 1 →
      t.phW = 0 ∧ SameRegs [] s.quiet.pnAdvance t ∧ t.draws = s.quiet.pnAdvance.draws ∧
      t.outEvents = s.quiet.pnAdvance.outEvents) ∧
    SameRegs [0, 1] s t ∧ t.phR = s.phR ∧ SameSubs s t ∧ SameBeam s t ∧ t.input = s.input ∧ t.outByte = none

/-- R133 (41_data_ports.md): IN P0 returns the byte at `PNAddr(R0.PNB, R0.PNY, R1.PNX, phR)`, changes no table byte
and never phW, and steps phR and the cursor as a write steps phW. -/
def Obligations.PatternNameReadEffect : Prop :=
  ∀ s : State, ∃ t, exec .inP0 s = .next t ∧
    t.outByte = some (s.memRead (s.pnPortLoc s.phR)) ∧ SameTables [] s t ∧ SamePorts [] s t ∧
    (s.phR = 0 → Dec.pnBytes s.regs = 2 →
      t.phR = 1 ∧ SameRegs [] s t ∧ t.draws = s.draws ∧ t.outEvents = []) ∧
    (s.phR = 1 ∨ Dec.pnBytes s.regs = 1 →
      t.phR = 0 ∧ SameRegs [] s.quiet.pnAdvance t ∧ t.draws = s.quiet.pnAdvance.draws ∧
      t.outEvents = s.quiet.pnAdvance.outEvents) ∧
    SameRegs [0, 1] s t ∧ t.phW = s.phW ∧ SameSubs s t ∧ SameBeam s t ∧ t.input = s.input

/-- R135 (41_data_ports.md): a cell written after setting the cursor reads back the same bytes in order after setting
the cursor to it again, in every mode, on every plane, whatever the autoincrement flags. -/
def Obligations.PatternNameRoundTrip : Prop :=
  ∀ (s : State) (pl : BitVec 1) (row col : BitVec 6) (v0 v1 : Byte),
    (Dec.pnBytes s.regs = 1 →
      ∃ t, execAll (setPn pl row col ++ [.outP0 v0] ++ setPn pl row col ++ [.inP0]) s = .next t ∧
        t.outByte = some v0) ∧
    (Dec.pnBytes s.regs = 2 →
      ∃ t u, execAll (setPn pl row col ++ [.outP0 v0, .outP0 v1] ++ setPn pl row col ++ [.inP0]) s = .next t ∧
        t.outByte = some v0 ∧ exec .inP0 t = .next u ∧ u.outByte = some v1)

/-! ## Sprite and scroll ports -/

/-- R137, R138 (41_data_ports.md): a write stores at SAT[R3], if SAT has that byte, and in P1, a read returns SAT[R3];
either advances R3 modulo 256 exactly when SAI is set, and nothing else changes. -/
def Obligations.SpritePortEffect : Prop :=
  ∀ (v : Byte) (s : State), ∃ t u,
    exec (.outP1 v) s = .next t ∧ exec .inP1 s = .next u ∧
    t.P 1 = v ∧ SamePorts [1] s t ∧ SamePorts [] s u ∧
    ((Loc.sat (s.R 3)).present s.config = true → t.memRead (.sat (s.R 3)) = v) ∧
    SameTables [.sat (s.R 3)] s t ∧ SameTables [] s u ∧
    Silent t ∧ Replies (s.memRead (.sat (s.R 3))) u ∧
    ∀ z ∈ [t, u],
      (z.R 3).toNat = (if bit (s.R 2) 2 then ((s.R 3).toNat + 1) % 256 else (s.R 3).toNat) ∧ SameRegs [3] s z ∧
      SamePhases s z ∧ SameSubs s z ∧ SameBeam s z ∧ SameInput s z

/-- R139, R140, R141 (41_data_ports.md): a write stores at SCR[R2.SCB][R4] and in P2, a read returns that byte; when
SCI is set R4 advances, and at 255 it returns to 0 and R2.SCB toggles; nothing else changes. -/
def Obligations.ScrollPortEffect : Prop :=
  ∀ (v : Byte) (s : State), ∃ t u,
    exec (.outP2 v) s = .next t ∧ exec .inP2 s = .next u ∧
    t.P 2 = v ∧ SamePorts [2] s t ∧ SamePorts [] s u ∧
    t.memRead s.scPortLoc = v ∧ SameTables [s.scPortLoc] s t ∧ SameTables [] s u ∧
    Silent t ∧ Replies (s.memRead s.scPortLoc) u ∧
    s.scPortLoc = .scr (if bit (s.R 2) 5 then .B else .A) (s.R 4) ∧
    ∀ z ∈ [t, u],
      (bit (s.R 2) 3 = true → (s.R 4).toNat + 1 < 256 →
        (z.R 4).toNat = (s.R 4).toNat + 1 ∧ SameRegs [4] s z) ∧
      (bit (s.R 2) 3 = true → (s.R 4).toNat + 1 = 256 →
        z.R 4 = 0 ∧ bit (z.R 2) 5 = !bit (s.R 2) 5 ∧ (∀ k, k ≠ 5 → bit (z.R 2) k = bit (s.R 2) k) ∧
        SameRegs [2, 4] s z) ∧
      (bit (s.R 2) 3 = false → SameRegs [] s z) ∧
      SamePhases s z ∧ SameSubs s z ∧ SameBeam s z ∧ SameInput s z

/-- R140 (41_data_ports.md): with SCI set, n reads move the port n places round the 512 bytes of both planes, and the
next read returns the byte of that place: all of one plane, then all of the other, and 512 reads come back. -/
def Obligations.ScrollReadsStreamBothPlanes : Prop :=
  ∀ (n : Nat) (s : State), sci s.regs = true →
    ∃ t, execAll (List.replicate n .inP2) s = .next t ∧ sci t.regs = true ∧
      scrollIndex t.regs = (scrollIndex s.regs + n) % 512 ∧ SameRegs [2, 4] s t ∧ SameTables [] s t ∧
      ∃ u, exec .inP2 t = .next u ∧
        u.outByte = some (s.memRead (.scr (if 256 ≤ scrollIndex t.regs then .B else .A)
          (BitVec.ofNat 8 (scrollIndex t.regs))))

/-! ## Palette port -/

/-- R146 (41_data_ports.md): OUT P3 stores at CRAM[R5][subW], if the palette has that entry, and in P3; the third
component of a triplet emits PaletteCommit with the entry's three bytes as they then stand and advances R5 modulo 256
exactly when CPI is set. -/
def Obligations.PaletteWriteEffect : Prop :=
  ∀ (v : Byte) (s : State), ∃ t, exec (.outP3 v) s = .next t ∧
    t.P 3 = v ∧ SamePorts [3] s t ∧
    ((Loc.cram (s.R 5) s.subW).present s.config = true → t.memRead (.cram (s.R 5) s.subW) = v) ∧
    SameTables [.cram (s.R 5) s.subW] s t ∧
    (s.subW = 2 → t.subW = 0 ∧
      t.outEvents = [.paletteCommit (s.R 5) (t.memRead (.cram (s.R 5) 0)) (t.memRead (.cram (s.R 5) 1))
        (t.memRead (.cram (s.R 5) 2))] ∧
      (t.R 5).toNat = (if bit (s.R 2) 4 then ((s.R 5).toNat + 1) % 256 else (s.R 5).toNat)) ∧
    (s.subW ≠ 2 → t.subW.val = s.subW.val + 1 ∧ t.outEvents = [] ∧ t.R 5 = s.R 5) ∧
    SameRegs [5] s t ∧ t.subR = s.subR ∧ SamePhases s t ∧ SameBeam s t ∧ SameInput s t ∧ t.outByte = none

/-- R145 (41_data_ports.md): IN P3 returns CRAM[R5][subR] and steps subR; a completed triplet advances R5 modulo 256
exactly when CPI is set; it commits nothing and leaves subW. -/
def Obligations.PaletteReadEffect : Prop :=
  ∀ s : State, ∃ t, exec .inP3 s = .next t ∧ Replies (s.memRead (.cram (s.R 5) s.subR)) t ∧
    (s.subR = 2 → t.subR = 0 ∧
      (t.R 5).toNat = (if bit (s.R 2) 4 then ((s.R 5).toNat + 1) % 256 else (s.R 5).toNat)) ∧
    (s.subR ≠ 2 → t.subR.val = s.subR.val + 1 ∧ t.R 5 = s.R 5) ∧
    SameRegs [5] s t ∧ SamePorts [] s t ∧ SameTables [] s t ∧ t.subW = s.subW ∧ SamePhases s t ∧ SameBeam s t ∧
    SameInput s t

/-- R147 (41_data_ports.md): from subW = 0 with CPI set, three writes commit exactly one triplet, made of the three
bytes, and advance the palette cursor by exactly 1, at every entry the palette has. -/
def Obligations.PaletteTripletCommitsOnce : Prop :=
  ∀ (s : State) (r g b : Byte), s.subW = 0 → cpi s.regs = true → (s.R 5).toNat < s.config.palN →
    ∃ t1 t2 t3, exec (.outP3 r) s = .next t1 ∧ exec (.outP3 g) t1 = .next t2 ∧ exec (.outP3 b) t2 = .next t3 ∧
      t1.outEvents ++ t2.outEvents ++ t3.outEvents = [.paletteCommit (s.R 5) r g b] ∧
      t3.R 5 = s.R 5 + 1 ∧ t3.subW = 0 ∧
      t3.memRead (.cram (s.R 5) 0) = r ∧ t3.memRead (.cram (s.R 5) 1) = g ∧ t3.memRead (.cram (s.R 5) 2) = b

/-! ## Status, interrupts and the beam -/

/-- R160 (42_status_control.md): OUT P6 clears FV for a 1 in bit 0 and FP for a 1 in bit 1, leaves bits 7:2 and
everything else, and each line falls with its flag. -/
def Obligations.StatusClearEffect : Prop :=
  ∀ (v : Byte) (s : State), ∃ t, exec (.outP6 v) s = .next t ∧
    t.fv = (s.fv && !bit v 0) ∧ t.fp = (s.fp && !bit v 1) ∧ (∀ k, 2 ≤ k → bit (t.P 6) k = bit (s.P 6) k) ∧
    (bit v 0 = true → t.irqV = false) ∧ (bit v 1 = true → t.irqR = false) ∧
    SamePorts [6] s t ∧ SameRegs [] s t ∧ SameTables [] s t ∧ SamePhases s t ∧ SameSubs s t ∧ SameBeam s t ∧
    SameInput s t ∧ Silent t

/-- R242, R243 (60_exceptions.md): a write of R14 clears no pending flag; the lines after it are the flags masked by
the new enable bits. -/
def Obligations.EnableBitsGateTheLines : Prop :=
  ∀ (v : Byte) (s : State), s.addr = 14 →
    ∃ t, exec (.outP4 v) s = .next t ∧ t.fv = s.fv ∧ t.fp = s.fp ∧
      t.irqV = (s.fv && bit v 0) ∧ t.irqR = (s.fp && bit v 1)

/-- R224 (46_crtc.md), R241 (60_exceptions.md): with invalid geometry TICK changes nothing; otherwise the beam moves
one dot, wrapping at the totals by `>=`, FV is set exactly when the beam arrives at the vblank position with IEV set,
FP exactly when it arrives at the raster position with IEP set, and nothing else changes; for every H_UNIT (R8). -/
def Obligations.TickMovesTheBeamAndRaisesFlags : Prop :=
  ∀ s : State, ∃ t, exec .tick s = .next t ∧ Silent t ∧
    SameRegs [] s t ∧ SamePorts [6] s t ∧ (∀ k, 2 ≤ k → bit (t.P 6) k = bit (s.P 6) k) ∧ SameTables [] s t ∧
    SamePhases s t ∧ SameSubs s t ∧ SameInput s t ∧
    (let htotal := s.config.hUnit * htl s.regs
      let vtotal := vtl s.regs
      let h := if s.hpos.toNat + 1 < htotal then s.hpos.toNat + 1 else 0
      let v := if s.hpos.toNat + 1 < htotal then s.vpos.toNat
        else if s.vpos.toNat + 1 < vtotal then s.vpos.toNat + 1 else 0
      (htotal = 0 ∨ vtotal = 0 → SameBeam s t ∧ SamePorts [] s t) ∧
      (htotal ≠ 0 → vtotal ≠ 0 →
        t.hpos = BitVec.ofNat 11 h ∧ t.vpos.toNat = v ∧
        (t.fv = true ↔ s.fv = true ∨
          (iev s.regs = true ∧ h = 0 ∧ v = vds s.regs + vdw s.regs ∧ vds s.regs + vdw s.regs < vtotal)) ∧
        (t.fp = true ↔ s.fp = true ∨
          (iep s.regs = true ∧ h = s.config.hUnit * ih s.regs ∧ v = Dec.IV s.regs ∧
            s.config.hUnit * ih s.regs < htotal ∧ Dec.IV s.regs < vtotal))))

/-- R63 (10_state.md), R241, R242 (60_exceptions.md), over all transactions: only TICK sets a status flag, with its
source enabled and the beam at its position; only a status write with a 1 in its bit, the reset operation or POWERON
clears it. -/
def Obligations.OnlyTheseTransactionsChangeAFlag : Prop :=
  ∀ (i : Instr) (s t : State), exec i s = .next t →
    (s.fv = false → t.fv = true → i = .tick ∧ iev s.regs = true ∧
      ∃ p, vblankPos s.config s.regs = some p ∧ t.hpos = BitVec.ofNat 11 p.1 ∧ t.vpos = BitVec.ofNat 9 p.2) ∧
    (s.fp = false → t.fp = true → i = .tick ∧ iep s.regs = true ∧
      ∃ p, rasterPos s.config s.regs = some p ∧ t.hpos = BitVec.ofNat 11 p.1 ∧ t.vpos = BitVec.ofNat 9 p.2) ∧
    (s.fv = true → t.fv = false →
      i = .powerOn ∨ ∃ v, bit v 0 = true ∧ (i = .outP6 v ∨ i = .outP7 v)) ∧
    (s.fp = true → t.fp = false →
      i = .powerOn ∨ ∃ v, (i = .outP6 v ∧ bit v 1 = true) ∨ (i = .outP7 v ∧ bit v 0 = true))

/-- R30 (10_state.md), R251 (60_exceptions.md), over all transactions: only TICK and POWERON move the beam, and no
transaction but those two depends on it. -/
def Obligations.OnlyTickAndPowerOnMoveTheBeam : Prop :=
  ∀ (i : Instr) (s : State), i ≠ .tick → i ≠ .powerOn →
    ∃ t, exec i s = .next t ∧ SameBeam s t ∧
      ∀ (h : BitVec 11) (v : BitVec 9), exec i { s with hpos := h, vpos := v } = .next { t with hpos := h, vpos := v }

/-- R226 (46_crtc.md), on every configuration whose lines hpos can count (R251; at the default H_UNIT all do): with
valid geometry the beam visits the dots of the frame one after another: n TICKs move it n places round the framePeriod
dots, and it stays inside the totals. -/
def Obligations.BeamVisitsTheFrameInOrder : Prop :=
  ∀ (n : Nat) (s : State), s.beamInside → Dec.htotal s.config s.regs ≤ 2048 →
    ∃ t, execAll (ticks n) s = .next t ∧ t.regs = s.regs ∧ t.beamInside ∧
      t.beamIndex = (s.beamIndex + n) % framePeriod s.config s.regs

/-- R223, R226 (46_crtc.md): with an out-of-range raster position no number of TICKs changes FP. -/
def Obligations.OutOfRangeRasterNeverFires : Prop :=
  ∀ (n : Nat) (s : State), (s.config.hUnit * htl s.regs ≤ s.config.hUnit * ih s.regs ∨ vtl s.regs ≤ Dec.IV s.regs) →
    ∃ t, execAll (ticks n) s = .next t ∧ t.fp = s.fp ∧ (t.irqR = s.irqR)

/-- R226 (46_crtc.md), on every configuration whose lines hpos can count: with a raster position and its source
enabled, FP rises within one frame, and not before the beam arrives; with a vblank position and its source enabled, so
does FV. -/
def Obligations.EnabledEventsFireWithinAFrame : Prop :=
  ∀ (s : State) (p : Nat × Nat), s.beamInside → Dec.htotal s.config s.regs ≤ 2048 →
    (rasterPos s.config s.regs = some p → iep s.regs = true → s.fp = false →
      ∃ n, 1 ≤ n ∧ n ≤ framePeriod s.config s.regs ∧
        (∀ m < n, ∃ t, execAll (ticks m) s = .next t ∧ t.fp = false) ∧
        ∃ t, execAll (ticks n) s = .next t ∧ t.fp = true ∧ (t.hpos.toNat, t.vpos.toNat) = p) ∧
    (vblankPos s.config s.regs = some p → iev s.regs = true → s.fv = false →
      ∃ n, 1 ≤ n ∧ n ≤ framePeriod s.config s.regs ∧
        (∀ m < n, ∃ t, execAll (ticks m) s = .next t ∧ t.fv = false) ∧
        ∃ t, execAll (ticks n) s = .next t ∧ t.fv = true ∧ (t.hpos.toNat, t.vpos.toNat) = p)

/-- R221, R222 (46_crtc.md): the geometry and the vblank position are functions of R39 to R46 alone, and the visible
area is clipped to the totals. -/
def Obligations.GeometryIsAFunctionOfTheCrtcRegisters : Prop :=
  ∀ (c : Config) (r r' : Regs), (∀ i : Fin 64, 39 ≤ i.val → i.val ≤ 46 → reg r i = reg r' i) →
    geometry c r = geometry c r' ∧ vblankPos c r = vblankPos c r' ∧
    (geometry c r).x1 < (geometry c r).htotal ∧ (geometry c r).y1 < (geometry c r).vtotal ∧
    (geometry c r).x1 < (geometry c r).x0 + c.hUnit * hdw r ∧ (geometry c r).y1 < (geometry c r).y0 + vdw r

/-- R221, R222, R223 (46_crtc.md) for every H_UNIT: the geometry computed from the bytes of R39 to R46, and the
positions of the two events. -/
def Obligations.GeometryAndEventPositions : Prop :=
  ∀ (c : Config) (r : Regs),
    let b := fun i : Fin 64 => (reg r i).toNat
    let g := geometry c r
    let ht := c.hUnit * b 39
    let vt := 256 * (b 46 % 2) + b 43
    let vh := 256 * (b 46 / 2 % 2) + b 45
    (g.valid = true ↔ 0 < ht ∧ 0 < vt) ∧ g.htotal = ht ∧ g.vtotal = vt ∧ g.framePeriod = ht * vt ∧
    g.x0 = c.hUnit * b 40 ∧ g.x1 = ((c.hUnit * b 40 + c.hUnit * b 41) ⊓ ht : Nat) - 1 ∧
    g.y0 = b 44 ∧ g.y1 = ((b 44 + vh) ⊓ vt : Nat) - 1 ∧
    (g.visibleEmpty = true ↔ g.x1 < g.x0 ∨ g.y1 < g.y0) ∧
    g.hsync = c.hUnit * (b 42 % 16) ∧ g.hborder = c.hUnit * (b 42 / 16) ∧
    g.vsync = b 46 / 4 % 8 ∧ g.vborder = b 46 / 32 ∧
    (∀ p : Nat × Nat, vblankPos c r = some p ↔
      0 < ht ∧ p = (0, b 44 + vh) ∧ b 44 + vh < vt) ∧
    (∀ p : Nat × Nat, rasterPos c r = some p ↔
      p = (c.hUnit * b 15, 256 * (b 14 / 128) + b 16) ∧ c.hUnit * b 15 < ht ∧ 256 * (b 14 / 128) + b 16 < vt)

/-! ## Invariants and whole-machine rules -/

/-- Every step keeps P6[7:2] zero (R24), P7[0] zero (the sentence of R163 the spec marks as derived from R162) and the
tables in range (R29) and canonical; the canonical form is the model's own choice of a table's data (log 7). -/
def Obligations.StepKeepsTheInvariant : Prop :=
  ∀ s t : State, s.Inv → step s = .next t → t.Inv

/-- The initial state meets the invariant, and placing a word keeps it. The canonical tables of the invariant are the
model's own choice (log 7), and so is the placing of a word (logs 1 and 6). -/
def Obligations.ResetMeetsTheInvariant : Prop :=
  State.reset.Inv ∧ ∀ (s : State) (nbits w : Nat), s.Inv → (s.withFetchWord nbits w).Inv

/-- Canonical form: two states that meet the invariant and read alike at every table byte hold equal tables. -/
def Obligations.CanonicalTablesAreExtensional : Prop :=
  ∀ s t : State, s.Inv → t.Inv → s.config = t.config → (∀ l, s.memRead l = t.memRead l) →
    s.pnt = t.pnt ∧ s.sat = t.sat ∧ s.scrA = t.scrA ∧ s.scrB = t.scrB ∧ s.cram = t.cram

/-- R20, R62 (10_state.md), over all transactions: a register changes only by a register data write at its number, by
reset or POWERON, or, for the cursors R0 to R5, by an access of its own port. -/
def Obligations.OnlyTheseTransactionsChangeARegister : Prop :=
  ∀ (i : Instr) (s t : State) (k : Fin 64), exec i s = .next t → t.R k ≠ s.R k →
    (∃ v, i = .outP4 v ∧ s.addr.toFin = k) ∨ (∃ v, i = .outP7 v ∧ bit v 0 = true ∧ Cleared k) ∨ i = .powerOn ∨
    (k.val ≤ 1 ∧ (i = .inP0 ∨ ∃ v, i = .outP0 v)) ∨ (k = 3 ∧ (i = .inP1 ∨ ∃ v, i = .outP1 v)) ∨
    ((k = 2 ∨ k = 4) ∧ (i = .inP2 ∨ ∃ v, i = .outP2 v)) ∨ (k = 5 ∧ (i = .inP3 ∨ ∃ v, i = .outP3 v))

/-- R80, R83 (20_memory.md), over all transactions: a table byte changes only by a write of its own port at its
cursor, and then it is the byte written, or by reset or POWERON, and then it is 0. -/
def Obligations.OnlyTheseTransactionsChangeATable : Prop :=
  ∀ (i : Instr) (s t : State) (l : Loc), exec i s = .next t → t.memRead l ≠ s.memRead l →
    (∃ v, t.memRead l = v ∧ ((i = .outP0 v ∧ l = s.pnPortLoc s.phW) ∨ (i = .outP1 v ∧ l = .sat (s.R 3)) ∨
      (i = .outP2 v ∧ l = s.scPortLoc) ∨ (i = .outP3 v ∧ l = .cram (s.R 5) s.subW))) ∨
    (t.memRead l = 0 ∧ (i = .powerOn ∨ ∃ v, i = .outP7 v ∧ bit v 0 = true))

/-- R64 (10_state.md), R248 (60_exceptions.md): what a transaction does depends on the snapshot alone (and on the
machine's parameters and, for the free cursor, on the draw it makes), not on earlier outputs or on pending words; a
snapshot restored is the state saved. -/
def Obligations.SnapshotDeterminesBehaviour : Prop :=
  (∀ (i : Instr) (s s' : State), s.save = s'.save → s.draws = s'.draws → s.config = s'.config →
    ∃ t t', exec i s = .next t ∧ exec i s' = .next t' ∧ t.save = t'.save ∧ t.outByte = t'.outByte ∧
      t.outEvents = t'.outEvents ∧ t.draws = t'.draws) ∧
  (∀ (s : State) (n : Snapshot), (s.restore n).save = n ∧ s.restore s.save = s)

/-! ## Decoded fields -/

/-- R61 (10_state.md): the page geometry table; and that every row of it fills the 4096-byte table exactly, a sentence
the spec marks as derived from R29 and the table. -/
def Obligations.PageGeometryTable : Prop :=
  ∀ r : Regs,
    (md r = 0 → Dec.twoPlane r = true ∧ Dec.pnBytes r = 1 ∧ (Dec.col16 r && Dec.pnBytes r == 2) = false ∧
      (Dec.W r, Dec.H r) = (if pgs r then (64, 32) else (32, 64))) ∧
    (md r = 1 → Dec.twoPlane r = true ∧ Dec.pnBytes r = 2 ∧ Dec.col16 r = true ∧ (Dec.W r, Dec.H r) = (32, 32)) ∧
    (md r = 2 → Dec.twoPlane r = false ∧ Dec.pnBytes r = 2 ∧ Dec.col16 r = true ∧
      (Dec.W r, Dec.H r) = (if pgs r then (64, 32) else (32, 64))) ∧
    (md r = 3 → Dec.twoPlane r = false ∧ Dec.pnBytes r = 2 ∧ Dec.col16 r = false ∧
      (Dec.W r, Dec.H r) = (if pgs r then (64, 32) else (32, 64))) ∧
    md r < 4 ∧ Dec.W r * Dec.H r * Dec.pnBytes r * (if Dec.twoPlane r then 2 else 1) = 4096

/-- R50, R51 (10_state.md): the low and high nibbles of R17 to R20 and of R21 to R24 are the bases of planes A and B. -/
def Obligations.BaseNibbles : Prop :=
  ∀ (r : Regs) (j : Fin 4),
    base r .A ⟨2 * j.val, by omega⟩ = (reg r ⟨17 + j.val, by omega⟩).toNat % 16 ∧
    base r .A ⟨2 * j.val + 1, by omega⟩ = (reg r ⟨17 + j.val, by omega⟩).toNat / 16 ∧
    base r .B ⟨2 * j.val, by omega⟩ = (reg r ⟨21 + j.val, by omega⟩).toNat % 16 ∧
    base r .B ⟨2 * j.val + 1, by omega⟩ = (reg r ⟨21 + j.val, by omega⟩).toNat / 16

/-! ## Tile resolver -/

/-- R180, R181 (43_tile_resolver.md): the code returned is below the limit of the pattern size, the anomaly is emitted
exactly when the code was out of range and plane B is enabled, and plane B in a single-plane mode is all zero; for
every configuration whose limits are positive. -/
def Obligations.TileCodesStayInRange : Prop :=
  ∀ (s : State) (p : Plane) (row col : Nat), 0 < tileLimit s.config s.regs →
    (s.tileInfo p row col).code < tileLimit s.config s.regs ∧
    ((p = .B ∧ md s.regs ≥ 2) → s.tileInfo p row col = ⟨0, 0, false, false, []⟩) ∧
    (¬(p = .B ∧ md s.regs ≥ 2) →
      (s.pagedCode p row col < tileLimit s.config s.regs →
        (s.tileInfo p row col).code = s.pagedCode p row col ∧ (s.tileInfo p row col).anomalies = []) ∧
      (tileLimit s.config s.regs ≤ s.pagedCode p row col →
        (s.tileInfo p row col).code = 0 ∧
        (s.tileInfo p row col).anomalies = [.tileCodeRange p row col (md s.regs)]))

/-- R172 to R175, R178 to R180 (43_tile_resolver.md): the code, colour and flips of a cell of an enabled plane,
computed from the cell's two bytes, the band's base, the page-select byte and the registers; the clamp to 0 leaves
colour and flips. -/
def Obligations.ResolverFollowsItsRules : Prop :=
  ∀ (s : State) (p : Plane) (row col : Nat), (p = .B → md s.regs < 2) →
    let byte := fun b : Nat => (s.memRead (.pnt (BitVec.ofNat 12 (pnAddr s.regs p row col b)))).toNat
    let scr := fun a : Nat => (s.memRead (.scr p (BitVec.ofNat 8 a))).toNat
    let b0 := byte 0
    let b1 := if md s.regs = 0 then 0 else byte 1
    let tile := if pts s.regs then 16 else 8
    let code0 := if md s.regs = 0 then b0 else b0 + 256 * (b1 % 16)
    let band := row % Dec.H s.regs / (Dec.H s.regs / 8)
    let codeB := code0 + base s.regs p (Fin.ofNat 8 band) * (if md s.regs = 0 then 256 else 4096)
    let pageX := (scr 0x80 + 256 * scr 0x81) / (Dec.W s.regs * tile) % 8
    let pageY := (scr 0 + 256 * scr 1) / (Dec.H s.regs * tile) % 8
    let code := codeB + scr (0xC0 + (8 * pageY + pageX)) * 2 ^ s.config.pageCodeShift + s.config.boardBankOffset
    let limit := if pts s.regs then s.config.numTiles16 else s.config.numTiles8
    band < 8 ∧
    (s.tileInfo p row col).code = (if limit ≤ code then 0 else code) ∧
    (s.tileInfo p row col).colour =
      (if tcfe s.regs then codeB / 2 ^ tcfs s.regs % 16
        else if md s.regs = 1 ∨ md s.regs = 2 then b1 / 16 else 0) ∧
    (s.tileInfo p row col).flipx = (Machine.flip s.regs && decide (b1 / 64 % 2 = 1)) ∧
    (s.tileInfo p row col).flipy = (Machine.flip s.regs && decide (b1 / 128 = 1)) ∧
    (s.tileInfo p row col).anomalies = (if limit ≤ code then [.tileCodeRange p row col (md s.regs)] else [])

/-- R172, R173, R174, R179 (43_tile_resolver.md): the bytes a host writes at a cell through the pattern-name port are
the bytes the resolver reads there, in the one-byte mode (whose second byte is 0) and in the two-byte modes; with
colour fetch off, the flips and colour of the cell are those of its second byte. -/
def Obligations.ResolverReadsWhatThePortWrote : Prop :=
  ∀ (s : State) (pl : BitVec 1) (row col : BitVec 6) (v0 v1 : Byte),
    let p := planeOf (bit (pl.setWidth 8) 0)
    (Dec.pnBytes s.regs = 1 →
      ∃ t, execAll (setPn pl row col ++ [.outP0 v0]) s = .next t ∧
        t.pnByte0 p row.toNat col.toNat = v0 ∧ t.pnByte1 p row.toNat col.toNat = 0 ∧
        rawCode t.regs v0 0 = v0.toNat ∧
        (t.tileInfo p row.toNat col.toNat).flipx = false ∧ (t.tileInfo p row.toNat col.toNat).flipy = false ∧
        (tcfe s.regs = false → (t.tileInfo p row.toNat col.toNat).colour = 0)) ∧
    (Dec.pnBytes s.regs = 2 → (pl = 1 → Dec.twoPlane s.regs = true) →
      ∃ t, execAll (setPn pl row col ++ [.outP0 v0, .outP0 v1]) s = .next t ∧
        t.pnByte0 p row.toNat col.toNat = v0 ∧ t.pnByte1 p row.toNat col.toNat = v1 ∧
        rawCode t.regs v0 v1 = v0.toNat + 256 * (v1.toNat % 16) ∧
        (tcfe s.regs = false →
          (t.tileInfo p row.toNat col.toNat).colour = (if md s.regs = 3 then 0 else v1.toNat / 16) ∧
          (t.tileInfo p row.toNat col.toNat).flipx = (Machine.flip s.regs && bit v1 6) ∧
          (t.tileInfo p row.toNat col.toNat).flipy = (Machine.flip s.regs && bit v1 7)))

/-- R177 (43_tile_resolver.md): full-screen division for SDV = 0, one value per tile column for SDV = 1, and the
full-screen value with an anomaly for every other SDV; the values are little-endian words of the scroll table (R176);
the horizontal scroll is HS[p] for every line. -/
def Obligations.ScrollDivisionFallsBack : Prop :=
  ∀ (s : State) (p : Plane) (col : Nat),
    let word := fun k : Nat => (s.memRead (.scr p (BitVec.ofNat 8 (2 * k)))).toNat +
      256 * (s.memRead (.scr p (BitVec.ofNat 8 (2 * k + 1)))).toNat
    (sdv s.regs = 0 → s.columnVScroll p col = (word 0, [])) ∧
    (sdv s.regs = 1 → s.columnVScroll p col = (word (col % 64), [])) ∧
    (2 ≤ sdv s.regs → s.columnVScroll p col = (word 0, [.scrollDiv (sdv s.regs)])) ∧
    (∀ sx sy : Int, (s.blitMap p sx sy).1.1 = (sx + word 0x40) % (Dec.pageDotsW s.regs : Int))

/-! ## Sprite iterator -/

/-- R190 to R195 (44_sprite_iterator.md): every draw of entry n carries the code, colour, flips and size computed from
the entry's four bytes and R6, R9 and R11, and its places are the copies of R196; a shown list emits the
anomaly of an entry whose four bytes all stand in SAT exactly when its code is clamped. -/
def Obligations.SpriteEntryDecode : Prop :=
  ∀ (s : State) (n : Nat), n < 64 →
    let byte := fun k : Nat => (s.memRead (.sat (BitVec.ofNat 8 (4 * n + k)))).toNat
    let aux := byte 3 / 4 % 4
    let size : Fin 4 := Fin.ofNat 4 (if spas s.regs then sga s.regs else aux)
    let fl := if spas s.regs then aux else sga s.regs
    let bank := (s.R 6).toNat % 64 / 4 ^ size.val % 2 ^ (6 - 2 * size.val)
    let codeFull := 256 * bank + byte 0
    (s.sprDraws n).map (fun d => (d.px, d.py)) =
      copies (256 * (byte 3 % 2) + byte 1) (256 * (byte 3 / 2 % 2) + byte 2) (8 * 2 ^ size.val) ∧
    (∀ d ∈ s.sprDraws n,
      d.n = n ∧ d.d = 8 * 2 ^ size.val ∧ d.code = (if s.config.numSpr[size.val] ≤ codeFull then 0 else codeFull) ∧
      d.colour = (if scfe s.regs then
          codeFull / 2 ^ (s.config.sprCfShift[size.val])[(Fin.ofNat 4 (scfs s.regs)).val] % 16
        else byte 3 / 16) ∧
      d.flipx = decide (fl % 2 = 1) ∧ d.flipy = decide (fl / 2 = 1)) ∧
    (dspe s.regs = true → spd s.regs = false → n < s.config.satBytes / 4 →
      (Anomaly.spriteCodeRange n codeFull ∈ s.spriteAnomalies ↔ s.config.numSpr[size.val] ≤ codeFull))

/-- R197, R195 (44_sprite_iterator.md): no draw when the display is off or sprites are disabled; otherwise the list is
the draws of the entries one after another, from the last entry down to slot 0, which at the default SAT_BYTES is from
63 down to 0; so every entry is drawn one to four times and slot 0 comes last. That a table of another SAT_BYTES has
a quarter as many entries, rounded down, is the model's choice (log 11). With the default NUM_SPR no sprite code is
clamped. -/
def Obligations.SpriteListOrderAndBounds : Prop :=
  ∀ s : State,
    let count := s.config.satBytes / 4
    let ns := s.spriteList.map Draw.n
    (dspe s.regs = false ∨ spd s.regs = true → s.spriteList = []) ∧
    (dspe s.regs = true → spd s.regs = false →
      s.spriteList = (List.range count).reverse.flatMap s.sprDraws ∧
      (s.config.satBytes = Config.default.satBytes →
        (List.range count).reverse =
          [63, 62, 61, 60, 59, 58, 57, 56, 55, 54, 53, 52, 51, 50, 49, 48] ++
          [47, 46, 45, 44, 43, 42, 41, 40, 39, 38, 37, 36, 35, 34, 33, 32] ++
          [31, 30, 29, 28, 27, 26, 25, 24, 23, 22, 21, 20, 19, 18, 17, 16] ++
          [15, 14, 13, 12, 11, 10, 9, 8, 7, 6, 5, 4, 3, 2, 1, 0]) ∧
      ns.Pairwise (· ≥ ·) ∧ (∀ d ∈ s.spriteList, d.n < count) ∧
      (∀ n < count, 1 ≤ ns.count n ∧ ns.count n ≤ 4)) ∧
    (s.config.numSpr = Config.default.numSpr → s.spriteAnomalies = [])

/-- R196 (44_sprite_iterator.md): the copies of a sprite, in order, for each side of the two thresholds 512 - d; they
cover it on the 512x512 torus: each dot of it is covered, at its place modulo 512, by one of the copies. -/
def Obligations.SpriteCopiesCoverTheTorus : Prop :=
  ∀ (x y : Nat) (sz : Fin 4), x < 512 → y < 512 →
    let d := sprDots sz
    let X : Int := x
    let Y : Int := y
    (x ≤ 512 - d → y ≤ 512 - d → copies x y d = [(X, Y)]) ∧
    (512 - d < x → y ≤ 512 - d → copies x y d = [(X, Y), (X - 512, Y)]) ∧
    (x ≤ 512 - d → 512 - d < y → copies x y d = [(X, Y), (X, Y - 512)]) ∧
    (512 - d < x → 512 - d < y → copies x y d = [(X, Y), (X - 512, Y), (X, Y - 512), (X - 512, Y - 512)]) ∧
    (∀ i j : Nat, i < d → j < d →
      ∃ p ∈ copies x y d, p.1 + i = ((x + i) % 512 : Nat) ∧ p.2 + j = ((y + j) % 512 : Nat))

/-- R198 (44_sprite_iterator.md): on one machine (one set of parameters) the draw list is a function of SAT, R6, R7,
R9 and R11 alone. -/
def Obligations.SpriteListDependsOnlyOnItsInputs : Prop :=
  ∀ s s' : State, s.config = s'.config → (∀ a, s.memRead (.sat a) = s'.memRead (.sat a)) →
    (∀ i ∈ [(6 : Fin 64), 7, 9, 11], s.R i = s'.R i) →
    s.spriteList = s'.spriteList ∧ s.spriteAnomalies = s'.spriteAnomalies

/-! ## ROZ -/

/-- R213, R214 (45_roz.md), with the 2^ROZ_FRAC of R7, which is 128 at the default: with ROZE set plane A is sampled
through the affine map, floored and wrapped on the page, and takes no scroll; every other plane is sampled
axis-aligned. -/
def Obligations.SampleMapFollowsItsRules : Prop :=
  ∀ (s : State) (p : Plane) (sx sy : Int),
    let pw : Int := (Dec.W s.regs * (if pts s.regs then 16 else 8) : Nat)
    let ph : Int := (Dec.H s.regs * (if pts s.regs then 16 else 8) : Nat)
    let x := (sx + s.hs p) % pw
    let scroll := s.columnVScroll p (x.toNat / (if pts s.regs then 16 else 8))
    (roze s.regs = true → p = .A →
      s.sampleMap p sx sy =
        (((Dec.AX s.regs + sx * Dec.DX s.regs + sy * Dec.DXY s.regs) / 2 ^ s.config.rozFrac % pw,
          (Dec.AY s.regs + sx * Dec.DYX s.regs + sy * Dec.DY s.regs) / 2 ^ s.config.rozFrac % ph), [])) ∧
    (roze s.regs = false ∨ p = .B →
      s.sampleMap p sx sy = ((x, (sy + scroll.1) % ph), scroll.2)) ∧
    (2 : Int) ^ Config.default.rozFrac = 128

/-- R213, R215 (45_roz.md): the map always lands on the page; at 7 fractional bits (R7) unit steps with zero origins
are the identity modulo the page; all-zero parameters sample dot (0, 0) everywhere. -/
def Obligations.RozMapWrapsOnThePage : Prop :=
  ∀ (c : Config) (r : Regs) (sx sy : Int),
    (0 ≤ (rozMap c r sx sy).1 ∧ (rozMap c r sx sy).1 < Dec.W r * (if pts r then 16 else 8)) ∧
    (0 ≤ (rozMap c r sx sy).2 ∧ (rozMap c r sx sy).2 < Dec.H r * (if pts r then 16 else 8)) ∧
    (c.rozFrac = 7 → axRaw r = 0 → ayRaw r = 0 → dxRaw r = 0x80 → dyRaw r = 0x80 → dxyRaw r = 0 → dyxRaw r = 0 →
      rozMap c r sx sy =
        (sx % (Dec.W r * (if pts r then 16 else 8) : Nat), sy % (Dec.H r * (if pts r then 16 else 8) : Nat))) ∧
    ((∀ i : Fin 64, 25 ≤ i.val → i.val ≤ 38 → reg r i = 0) → rozMap c r sx sy = (0, 0))

/-- R212 (45_roz.md): after a write to any of R25 to R38 the decoded value is computed from the bytes as they stand:
the byte written and the others as they were. -/
def Obligations.RozParametersDecodeOnEachByte : Prop :=
  ∀ (v : Byte) (s : State), ∃ t, exec (.outP4 v) s = .next t ∧
    (s.addr = 25 → Dec.AX t.regs = (s.R 27 ++ s.R 26 ++ v).toInt) ∧
    (s.addr = 26 → Dec.AX t.regs = (s.R 27 ++ v ++ s.R 25).toInt) ∧
    (s.addr = 27 → Dec.AX t.regs = (v ++ s.R 26 ++ s.R 25).toInt) ∧
    (s.addr = 28 → Dec.DX t.regs = (s.R 29 ++ v).toInt) ∧
    (s.addr = 29 → Dec.DX t.regs = (v ++ s.R 28).toInt) ∧
    (s.addr = 30 → Dec.DXY t.regs = (s.R 31 ++ v).toInt) ∧
    (s.addr = 31 → Dec.DXY t.regs = (v ++ s.R 30).toInt) ∧
    (s.addr = 32 → Dec.AY t.regs = (s.R 34 ++ s.R 33 ++ v).toInt) ∧
    (s.addr = 33 → Dec.AY t.regs = (s.R 34 ++ v ++ s.R 32).toInt) ∧
    (s.addr = 34 → Dec.AY t.regs = (v ++ s.R 33 ++ s.R 32).toInt) ∧
    (s.addr = 35 → Dec.DY t.regs = (s.R 36 ++ v).toInt) ∧
    (s.addr = 36 → Dec.DY t.regs = (v ++ s.R 35).toInt) ∧
    (s.addr = 37 → Dec.DYX t.regs = (s.R 38 ++ v).toInt) ∧
    (s.addr = 38 → Dec.DYX t.regs = (v ++ s.R 37).toInt)

/-! ## Parameters (R8) -/

/-- R8 (00_scope.md): the parameters are the machine's: no transaction and no step changes them. That they stand in
the state is the model's choice (log 4). -/
def Obligations.ParametersStayAsBuilt : Prop :=
  (∀ (i : Instr) (s t : State), exec i s = .next t → t.config = s.config) ∧
  (∀ s t : State, step s = .next t → t.config = s.config) ∧
  State.reset.config = Config.default ∧ ∀ l : Loc, l.present Config.default = true

/-- The model's choice (log 10), where R8 allows a smaller table and the spec gives an access beyond it no effect: a
write of port 1 or 3 to a byte its table does not have stores nothing, and a read answers a free value of the
address. -/
def Obligations.AbsentTableBytesStoreNothing : Prop :=
  ∀ (v : Byte) (s : State),
    ((s.config.satBytes ≤ (s.R 3).toNat →
      (∃ t, exec (.outP1 v) s = .next t ∧ SameTables [] s t) ∧
      (∃ t, exec .inP1 s = .next t ∧ t.outByte = some (Config.freeSatByte (s.R 3)))) ∧
    (s.config.palN ≤ (s.R 5).toNat →
      (∃ t, exec (.outP3 v) s = .next t ∧ SameTables [] s t) ∧
      (∃ t, exec .inP3 s = .next t ∧ t.outByte = some (Config.freeCramByte (s.R 5) s.subR))))
end

