-- ==== Sys2Proof/Laws/Memory.lean ====
section
/-! SUPPORT. The laws of a table as data: a read after a write, and that a write keeps the canonical form. -/
namespace Sys2Proof.Machine

theorem Memory.read_filter_ne (m : Memory) (a b : Nat) :
    Memory.read (m.filter fun c => c.1 != a) b = if a = b then 0 else Memory.read m b := by
  induction m with
  | nil => simp [Memory.read]
  | cons c m ih =>
    obtain ⟨k, v⟩ := c
    rw [List.filter_cons]
    by_cases hk : k = a
    · subst hk
      by_cases hb : k = b
      · simp [hb] at ih ⊢; exact ih
      · simp [hb, Memory.read] at ih ⊢; exact ih
    · by_cases hb : k = b
      · subst hb; simp [hk, Memory.read, Ne.symm hk]
      · simp [hk, hb, Memory.read, ih]

theorem Memory.read_insert_filter (m : Memory) (a b : Nat) (v : Byte) :
    Memory.read (Memory.insert (a, v) (m.filter fun c => c.1 != a)) b = if a = b then v else Memory.read m b := by
  induction m with
  | nil => simp [Memory.read, Memory.insert]
  | cons c m ih =>
    obtain ⟨k, w⟩ := c
    rw [List.filter_cons]
    by_cases hk : k = a
    · subst hk
      simp only [bne_self_eq_false, Bool.false_eq_true, if_false, ih, Memory.read]
      by_cases hb : k = b <;> simp [hb]
    · simp only [bne_iff_ne, ne_eq, hk, not_false_eq_true, if_true, Memory.insert]
      by_cases hlt : a < k
      · simp only [hlt, if_true, Memory.read, Memory.read_filter_ne]
        by_cases hb : a = b <;> simp [hb]
      · simp only [hlt, if_false, Memory.read, ih]
        by_cases hb : k = b
        · subst hb; simp [Ne.symm hk]
        · simp [hb]

/-- A read after a write: the byte written at its own address, what was there before everywhere else. -/
@[simp] theorem Memory.read_write (m : Memory) (a b : Nat) (v : Byte) :
    Memory.read (Memory.write m a v) b = if a = b then v else Memory.read m b := by
  by_cases hv : v = 0
  · simp [Memory.write, hv, Memory.read_filter_ne]
  · simp only [Memory.write, if_neg hv, Memory.read_insert_filter]

theorem Memory.mem_insert (c d : Host.Cell) (m : Memory) : d ∈ Memory.insert c m ↔ d = c ∨ d ∈ m := by
  induction m with
  | nil => simp [Memory.insert]
  | cons e m ih =>
    by_cases h : c.1 < e.1
    · simp [Memory.insert, h]
    · simp only [Memory.insert, h, if_false, List.mem_cons, ih]
      tauto

theorem Memory.pairwise_insert (c : Host.Cell) (m : Memory) (hne : ∀ d ∈ m, d.1 ≠ c.1)
    (h : m.Pairwise fun c d => c.1 < d.1) : (Memory.insert c m).Pairwise fun c d => c.1 < d.1 := by
  induction m with
  | nil => simp [Memory.insert]
  | cons e m ih =>
    have he := hne e (by simp)
    rw [List.pairwise_cons] at h
    by_cases hlt : c.1 < e.1
    · simp only [Memory.insert, if_pos hlt, List.pairwise_cons, List.mem_cons, forall_eq_or_imp]
      exact ⟨⟨hlt, fun d hd => lt_trans hlt (h.1 d hd)⟩, h⟩
    · simp only [Memory.insert, hlt, if_false, List.pairwise_cons, Memory.mem_insert, forall_eq_or_imp]
      exact ⟨⟨by omega, h.1⟩, ih (fun d hd => hne d (by simp [hd])) h.2⟩

theorem Memory.wf_iff (n : Nat) (m : Memory) :
    Memory.wf n m = true ↔ (m.Pairwise fun c d => c.1 < d.1) ∧ ∀ c ∈ m, c.1 < n ∧ c.2 ≠ 0 := by
  simp [Memory.wf, Memory.rising]

/-- A store to an address that exists keeps the canonical form. -/
theorem Memory.wf_write (n : Nat) (m : Memory) (a : Nat) (v : Byte) (ha : a < n) (h : Memory.wf n m = true) :
    Memory.wf n (Memory.write m a v) = true := by
  rw [Memory.wf_iff] at h ⊢
  have hf : (m.filter fun c => c.1 != a).Pairwise fun c d => c.1 < d.1 := h.1.filter _
  have hm : ∀ c ∈ m.filter fun c => c.1 != a, c.1 < n ∧ c.2 ≠ 0 := fun c hc => h.2 c (List.mem_of_mem_filter hc)
  by_cases hv : v = 0
  · simp only [Memory.write, hv, if_true]
    exact ⟨hf, hm⟩
  · simp only [Memory.write, hv, if_false]
    refine ⟨Memory.pairwise_insert _ _ (by simp) hf, fun c hc => ?_⟩
    rcases (Memory.mem_insert _ _ _).mp hc with rfl | hc
    · exact ⟨ha, hv⟩
    · exact hm c hc

/-- A store lists no address but its own and those listed before. -/
theorem Memory.key_write (m : Memory) (a : Nat) (v : Byte) (c : Host.Cell) (h : c ∈ Memory.write m a v) :
    c.1 = a ∨ c ∈ m := by
  by_cases hv : v = 0
  · simp only [Memory.write, hv, if_true] at h
    exact .inr (List.mem_of_mem_filter h)
  · simp only [Memory.write, hv, if_false] at h
    rcases (Memory.mem_insert _ _ _).mp h with rfl | h
    · exact .inl rfl
    · exact .inr (List.mem_of_mem_filter h)

end Sys2Proof.Machine
end

