-- ==== Sys2Proof/Laws/State.lean ====
section
/-! SUPPORT. The small lemmas of the state: one per field per named update, each true by unfolding. -/
namespace Sys2Proof.Machine

@[simp] theorem State.setR_regs (s : State) (i : Fin 64) (v : Byte) : (s.setR i v).regs = s.regs.set i.val v := rfl
@[simp] theorem State.setR_ports (s : State) (i : Fin 64) (v : Byte) : (s.setR i v).ports = s.ports := rfl
@[simp] theorem State.setR_pnt (s : State) (i : Fin 64) (v : Byte) : (s.setR i v).pnt = s.pnt := rfl
@[simp] theorem State.setR_sat (s : State) (i : Fin 64) (v : Byte) : (s.setR i v).sat = s.sat := rfl
@[simp] theorem State.setR_scrA (s : State) (i : Fin 64) (v : Byte) : (s.setR i v).scrA = s.scrA := rfl
@[simp] theorem State.setR_scrB (s : State) (i : Fin 64) (v : Byte) : (s.setR i v).scrB = s.scrB := rfl
@[simp] theorem State.setR_cram (s : State) (i : Fin 64) (v : Byte) : (s.setR i v).cram = s.cram := rfl
@[simp] theorem State.setR_phR (s : State) (i : Fin 64) (v : Byte) : (s.setR i v).phR = s.phR := rfl
@[simp] theorem State.setR_phW (s : State) (i : Fin 64) (v : Byte) : (s.setR i v).phW = s.phW := rfl
@[simp] theorem State.setR_subR (s : State) (i : Fin 64) (v : Byte) : (s.setR i v).subR = s.subR := rfl
@[simp] theorem State.setR_subW (s : State) (i : Fin 64) (v : Byte) : (s.setR i v).subW = s.subW := rfl
@[simp] theorem State.setR_hpos (s : State) (i : Fin 64) (v : Byte) : (s.setR i v).hpos = s.hpos := rfl
@[simp] theorem State.setR_vpos (s : State) (i : Fin 64) (v : Byte) : (s.setR i v).vpos = s.vpos := rfl
@[simp] theorem State.setR_outByte (s : State) (i : Fin 64) (v : Byte) : (s.setR i v).outByte = s.outByte := rfl
@[simp] theorem State.setR_outEvents (s : State) (i : Fin 64) (v : Byte) : (s.setR i v).outEvents = s.outEvents := rfl
@[simp] theorem State.setR_draws (s : State) (i : Fin 64) (v : Byte) : (s.setR i v).draws = s.draws := rfl
@[simp] theorem State.setR_input (s : State) (i : Fin 64) (v : Byte) : (s.setR i v).input = s.input := rfl
@[simp] theorem State.setR_config (s : State) (i : Fin 64) (v : Byte) : (s.setR i v).config = s.config := rfl

@[simp] theorem State.setP_regs (s : State) (j : Fin 8) (v : Byte) : (s.setP j v).regs = s.regs := rfl
@[simp] theorem State.setP_ports (s : State) (j : Fin 8) (v : Byte) : (s.setP j v).ports = s.ports.set j.val v := rfl
@[simp] theorem State.setP_pnt (s : State) (j : Fin 8) (v : Byte) : (s.setP j v).pnt = s.pnt := rfl
@[simp] theorem State.setP_sat (s : State) (j : Fin 8) (v : Byte) : (s.setP j v).sat = s.sat := rfl
@[simp] theorem State.setP_scrA (s : State) (j : Fin 8) (v : Byte) : (s.setP j v).scrA = s.scrA := rfl
@[simp] theorem State.setP_scrB (s : State) (j : Fin 8) (v : Byte) : (s.setP j v).scrB = s.scrB := rfl
@[simp] theorem State.setP_cram (s : State) (j : Fin 8) (v : Byte) : (s.setP j v).cram = s.cram := rfl
@[simp] theorem State.setP_phR (s : State) (j : Fin 8) (v : Byte) : (s.setP j v).phR = s.phR := rfl
@[simp] theorem State.setP_phW (s : State) (j : Fin 8) (v : Byte) : (s.setP j v).phW = s.phW := rfl
@[simp] theorem State.setP_subR (s : State) (j : Fin 8) (v : Byte) : (s.setP j v).subR = s.subR := rfl
@[simp] theorem State.setP_subW (s : State) (j : Fin 8) (v : Byte) : (s.setP j v).subW = s.subW := rfl
@[simp] theorem State.setP_hpos (s : State) (j : Fin 8) (v : Byte) : (s.setP j v).hpos = s.hpos := rfl
@[simp] theorem State.setP_vpos (s : State) (j : Fin 8) (v : Byte) : (s.setP j v).vpos = s.vpos := rfl
@[simp] theorem State.setP_outByte (s : State) (j : Fin 8) (v : Byte) : (s.setP j v).outByte = s.outByte := rfl
@[simp] theorem State.setP_outEvents (s : State) (j : Fin 8) (v : Byte) : (s.setP j v).outEvents = s.outEvents := rfl
@[simp] theorem State.setP_draws (s : State) (j : Fin 8) (v : Byte) : (s.setP j v).draws = s.draws := rfl
@[simp] theorem State.setP_input (s : State) (j : Fin 8) (v : Byte) : (s.setP j v).input = s.input := rfl
@[simp] theorem State.setP_config (s : State) (j : Fin 8) (v : Byte) : (s.setP j v).config = s.config := rfl

@[simp] theorem State.quiet_regs (s : State) : s.quiet.regs = s.regs := rfl
@[simp] theorem State.quiet_ports (s : State) : s.quiet.ports = s.ports := rfl
@[simp] theorem State.quiet_pnt (s : State) : s.quiet.pnt = s.pnt := rfl
@[simp] theorem State.quiet_sat (s : State) : s.quiet.sat = s.sat := rfl
@[simp] theorem State.quiet_scrA (s : State) : s.quiet.scrA = s.scrA := rfl
@[simp] theorem State.quiet_scrB (s : State) : s.quiet.scrB = s.scrB := rfl
@[simp] theorem State.quiet_cram (s : State) : s.quiet.cram = s.cram := rfl
@[simp] theorem State.quiet_phR (s : State) : s.quiet.phR = s.phR := rfl
@[simp] theorem State.quiet_phW (s : State) : s.quiet.phW = s.phW := rfl
@[simp] theorem State.quiet_subR (s : State) : s.quiet.subR = s.subR := rfl
@[simp] theorem State.quiet_subW (s : State) : s.quiet.subW = s.subW := rfl
@[simp] theorem State.quiet_hpos (s : State) : s.quiet.hpos = s.hpos := rfl
@[simp] theorem State.quiet_vpos (s : State) : s.quiet.vpos = s.vpos := rfl
@[simp] theorem State.quiet_outByte (s : State) : s.quiet.outByte = none := rfl
@[simp] theorem State.quiet_outEvents (s : State) : s.quiet.outEvents = [] := rfl
@[simp] theorem State.quiet_draws (s : State) : s.quiet.draws = s.draws := rfl
@[simp] theorem State.quiet_input (s : State) : s.quiet.input = s.input := rfl
@[simp] theorem State.quiet_config (s : State) : s.quiet.config = s.config := rfl

@[simp] theorem State.reply_regs (s : State) (r : Byte) : (s.reply r).regs = s.regs := rfl
@[simp] theorem State.reply_ports (s : State) (r : Byte) : (s.reply r).ports = s.ports := rfl
@[simp] theorem State.reply_pnt (s : State) (r : Byte) : (s.reply r).pnt = s.pnt := rfl
@[simp] theorem State.reply_sat (s : State) (r : Byte) : (s.reply r).sat = s.sat := rfl
@[simp] theorem State.reply_scrA (s : State) (r : Byte) : (s.reply r).scrA = s.scrA := rfl
@[simp] theorem State.reply_scrB (s : State) (r : Byte) : (s.reply r).scrB = s.scrB := rfl
@[simp] theorem State.reply_cram (s : State) (r : Byte) : (s.reply r).cram = s.cram := rfl
@[simp] theorem State.reply_phR (s : State) (r : Byte) : (s.reply r).phR = s.phR := rfl
@[simp] theorem State.reply_phW (s : State) (r : Byte) : (s.reply r).phW = s.phW := rfl
@[simp] theorem State.reply_subR (s : State) (r : Byte) : (s.reply r).subR = s.subR := rfl
@[simp] theorem State.reply_subW (s : State) (r : Byte) : (s.reply r).subW = s.subW := rfl
@[simp] theorem State.reply_hpos (s : State) (r : Byte) : (s.reply r).hpos = s.hpos := rfl
@[simp] theorem State.reply_vpos (s : State) (r : Byte) : (s.reply r).vpos = s.vpos := rfl
@[simp] theorem State.reply_outByte (s : State) (r : Byte) : (s.reply r).outByte = some r := rfl
@[simp] theorem State.reply_outEvents (s : State) (r : Byte) : (s.reply r).outEvents = s.outEvents := rfl
@[simp] theorem State.reply_draws (s : State) (r : Byte) : (s.reply r).draws = s.draws := rfl
@[simp] theorem State.reply_input (s : State) (r : Byte) : (s.reply r).input = s.input := rfl
@[simp] theorem State.reply_config (s : State) (r : Byte) : (s.reply r).config = s.config := rfl

@[simp] theorem State.emit_regs (s : State) (e : Event) : (s.emit e).regs = s.regs := rfl
@[simp] theorem State.emit_ports (s : State) (e : Event) : (s.emit e).ports = s.ports := rfl
@[simp] theorem State.emit_pnt (s : State) (e : Event) : (s.emit e).pnt = s.pnt := rfl
@[simp] theorem State.emit_sat (s : State) (e : Event) : (s.emit e).sat = s.sat := rfl
@[simp] theorem State.emit_scrA (s : State) (e : Event) : (s.emit e).scrA = s.scrA := rfl
@[simp] theorem State.emit_scrB (s : State) (e : Event) : (s.emit e).scrB = s.scrB := rfl
@[simp] theorem State.emit_cram (s : State) (e : Event) : (s.emit e).cram = s.cram := rfl
@[simp] theorem State.emit_phR (s : State) (e : Event) : (s.emit e).phR = s.phR := rfl
@[simp] theorem State.emit_phW (s : State) (e : Event) : (s.emit e).phW = s.phW := rfl
@[simp] theorem State.emit_subR (s : State) (e : Event) : (s.emit e).subR = s.subR := rfl
@[simp] theorem State.emit_subW (s : State) (e : Event) : (s.emit e).subW = s.subW := rfl
@[simp] theorem State.emit_hpos (s : State) (e : Event) : (s.emit e).hpos = s.hpos := rfl
@[simp] theorem State.emit_vpos (s : State) (e : Event) : (s.emit e).vpos = s.vpos := rfl
@[simp] theorem State.emit_outByte (s : State) (e : Event) : (s.emit e).outByte = s.outByte := rfl
@[simp] theorem State.emit_outEvents (s : State) (e : Event) : (s.emit e).outEvents = s.outEvents ++ [e] := rfl
@[simp] theorem State.emit_draws (s : State) (e : Event) : (s.emit e).draws = s.draws := rfl
@[simp] theorem State.emit_input (s : State) (e : Event) : (s.emit e).input = s.input := rfl
@[simp] theorem State.emit_config (s : State) (e : Event) : (s.emit e).config = s.config := rfl

@[simp] theorem State.drawn_regs (s : State) : s.drawn.regs = s.regs := rfl
@[simp] theorem State.drawn_ports (s : State) : s.drawn.ports = s.ports := rfl
@[simp] theorem State.drawn_pnt (s : State) : s.drawn.pnt = s.pnt := rfl
@[simp] theorem State.drawn_sat (s : State) : s.drawn.sat = s.sat := rfl
@[simp] theorem State.drawn_scrA (s : State) : s.drawn.scrA = s.scrA := rfl
@[simp] theorem State.drawn_scrB (s : State) : s.drawn.scrB = s.scrB := rfl
@[simp] theorem State.drawn_cram (s : State) : s.drawn.cram = s.cram := rfl
@[simp] theorem State.drawn_phR (s : State) : s.drawn.phR = s.phR := rfl
@[simp] theorem State.drawn_phW (s : State) : s.drawn.phW = s.phW := rfl
@[simp] theorem State.drawn_subR (s : State) : s.drawn.subR = s.subR := rfl
@[simp] theorem State.drawn_subW (s : State) : s.drawn.subW = s.subW := rfl
@[simp] theorem State.drawn_hpos (s : State) : s.drawn.hpos = s.hpos := rfl
@[simp] theorem State.drawn_vpos (s : State) : s.drawn.vpos = s.vpos := rfl
@[simp] theorem State.drawn_outByte (s : State) : s.drawn.outByte = s.outByte := rfl
@[simp] theorem State.drawn_outEvents (s : State) : s.drawn.outEvents = s.outEvents := rfl
@[simp] theorem State.drawn_draws (s : State) : s.drawn.draws = s.draws + 1 := rfl
@[simp] theorem State.drawn_input (s : State) : s.drawn.input = s.input := rfl
@[simp] theorem State.drawn_config (s : State) : s.drawn.config = s.config := rfl

/-- A store touches the tables alone. -/
theorem State.memWrite_touches (s : State) (l : Loc) (v : Byte) :
    s.memWrite l v =
      { s with
        pnt := (s.memWrite l v).pnt, sat := (s.memWrite l v).sat, scrA := (s.memWrite l v).scrA,
        scrB := (s.memWrite l v).scrB, cram := (s.memWrite l v).cram } := by
  rcases l with a | a | ⟨_ | _, a⟩ | ⟨i, k⟩ <;> simp only [State.memWrite] <;> (try split_ifs) <;> rfl

@[simp] theorem State.memWrite_regs (s : State) (l : Loc) (v : Byte) : (s.memWrite l v).regs = s.regs := by
  rw [State.memWrite_touches]
@[simp] theorem State.memWrite_ports (s : State) (l : Loc) (v : Byte) : (s.memWrite l v).ports = s.ports := by
  rw [State.memWrite_touches]
@[simp] theorem State.memWrite_phR (s : State) (l : Loc) (v : Byte) : (s.memWrite l v).phR = s.phR := by
  rw [State.memWrite_touches]
@[simp] theorem State.memWrite_phW (s : State) (l : Loc) (v : Byte) : (s.memWrite l v).phW = s.phW := by
  rw [State.memWrite_touches]
@[simp] theorem State.memWrite_subR (s : State) (l : Loc) (v : Byte) : (s.memWrite l v).subR = s.subR := by
  rw [State.memWrite_touches]
@[simp] theorem State.memWrite_subW (s : State) (l : Loc) (v : Byte) : (s.memWrite l v).subW = s.subW := by
  rw [State.memWrite_touches]
@[simp] theorem State.memWrite_hpos (s : State) (l : Loc) (v : Byte) : (s.memWrite l v).hpos = s.hpos := by
  rw [State.memWrite_touches]
@[simp] theorem State.memWrite_vpos (s : State) (l : Loc) (v : Byte) : (s.memWrite l v).vpos = s.vpos := by
  rw [State.memWrite_touches]
@[simp] theorem State.memWrite_outByte (s : State) (l : Loc) (v : Byte) : (s.memWrite l v).outByte = s.outByte := by
  rw [State.memWrite_touches]
@[simp] theorem State.memWrite_outEvents (s : State) (l : Loc) (v : Byte) : (s.memWrite l v).outEvents = s.outEvents := by
  rw [State.memWrite_touches]
@[simp] theorem State.memWrite_draws (s : State) (l : Loc) (v : Byte) : (s.memWrite l v).draws = s.draws := by
  rw [State.memWrite_touches]
@[simp] theorem State.memWrite_input (s : State) (l : Loc) (v : Byte) : (s.memWrite l v).input = s.input := by
  rw [State.memWrite_touches]
@[simp] theorem State.memWrite_config (s : State) (l : Loc) (v : Byte) : (s.memWrite l v).config = s.config := by
  rw [State.memWrite_touches]

end Sys2Proof.Machine
end

