-- ==== Sys2Proof/Laws/Ops.lean ====
section
/-! SUPPORT. What each shared operation does, seen through the reads of registers, latches and tables: one lemma per
update and read. -/
namespace Sys2Proof.Machine

/-! ## Registers and latches -/

@[simp] theorem reg_set (r : Regs) (i j : Fin 64) (v : Byte) :
    reg (r.set i.val v) j = if i = j then v else reg r j := by
  simp [reg, Vector.getElem_set, Fin.ext_iff]

@[simp] theorem State.R_setR (s : State) (i j : Fin 64) (v : Byte) :
    (s.setR i v).R j = if i = j then v else s.R j := reg_set s.regs i j v

@[simp] theorem State.P_setP (s : State) (i j : Fin 8) (v : Byte) :
    (s.setP i v).P j = if i = j then v else s.P j := by
  simp [State.P, Vector.getElem_set, Fin.ext_iff]

@[simp] theorem State.R_setP (s : State) (j : Fin 8) (v : Byte) (i : Fin 64) : (s.setP j v).R i = s.R i := rfl
@[simp] theorem State.R_quiet (s : State) (i : Fin 64) : s.quiet.R i = s.R i := rfl
@[simp] theorem State.R_reply (s : State) (r : Byte) (i : Fin 64) : (s.reply r).R i = s.R i := rfl
@[simp] theorem State.R_emit (s : State) (e : Event) (i : Fin 64) : (s.emit e).R i = s.R i := rfl
@[simp] theorem State.R_drawn (s : State) (i : Fin 64) : s.drawn.R i = s.R i := rfl
@[simp] theorem State.R_memWrite (s : State) (l : Loc) (v : Byte) (i : Fin 64) : (s.memWrite l v).R i = s.R i := by
  simp [State.R]

@[simp] theorem State.P_setR (s : State) (i : Fin 64) (v : Byte) (j : Fin 8) : (s.setR i v).P j = s.P j := rfl
@[simp] theorem State.P_quiet (s : State) (j : Fin 8) : s.quiet.P j = s.P j := rfl
@[simp] theorem State.P_reply (s : State) (r : Byte) (j : Fin 8) : (s.reply r).P j = s.P j := rfl
@[simp] theorem State.P_emit (s : State) (e : Event) (j : Fin 8) : (s.emit e).P j = s.P j := rfl
@[simp] theorem State.P_drawn (s : State) (j : Fin 8) : s.drawn.P j = s.P j := rfl
@[simp] theorem State.P_memWrite (s : State) (l : Loc) (v : Byte) (j : Fin 8) : (s.memWrite l v).P j = s.P j := by
  simp [State.P]

/-! ## Tables -/

theorem cramKey_inj {i i' : Byte} {k k' : Fin 3} (h : cramKey i k = cramKey i' k') : i = i' ∧ k = k' := by
  have := k.isLt
  have := k'.isLt
  simp only [cramKey] at h
  exact ⟨BitVec.eq_of_toNat_eq (by omega), Fin.ext (by omega)⟩

@[simp] theorem Loc.present_pnt (c : Config) (a : BitVec 12) : (Loc.pnt a).present c = true := rfl
@[simp] theorem Loc.present_scr (c : Config) (p : Plane) (a : Byte) : (Loc.scr p a).present c = true := rfl
@[simp] theorem Loc.present_sat (c : Config) (a : Byte) : (Loc.sat a).present c = decide (a.toNat < c.satBytes) := rfl
@[simp] theorem Loc.present_cram (c : Config) (i : Byte) (k : Fin 3) :
    (Loc.cram i k).present c = decide (i.toNat < c.palN) := rfl

/-- At the default sizes every byte exists. -/
theorem Loc.present_default (l : Loc) : l.present Config.default = true := by
  rcases l with a | a | ⟨p, a⟩ | ⟨i, k⟩
  · rfl
  · exact decide_eq_true a.isLt
  · rfl
  · exact decide_eq_true i.isLt

/-- A store to a byte the table does not have stores nothing. -/
theorem State.memWrite_absent (s : State) (l : Loc) (v : Byte) (h : l.present s.config = false) : s.memWrite l v = s := by
  rcases l with a | a | ⟨_ | _, a⟩ | ⟨i, k⟩ <;> simp_all [State.memWrite, Loc.present, Nat.not_lt.mpr]

/-- A read of a table byte after a store: the byte stored at its own address if the table has it, what was there before
everywhere else. -/
@[simp] theorem State.memRead_memWrite (s : State) (l l' : Loc) (v : Byte) :
    (s.memWrite l v).memRead l' = if l = l' ∧ l.present s.config = true then v else s.memRead l' := by
  rcases Bool.eq_false_or_eq_true (l.present s.config) with hp | hp
  · rcases l with a | a | ⟨_ | _, a⟩ | ⟨i, k⟩ <;> simp only [Loc.present, decide_eq_true_eq] at hp <;>
      rcases l' with a' | a' | ⟨_ | _, a'⟩ | ⟨i', k'⟩ <;>
      simp [State.memRead, State.memWrite, Loc.present, BitVec.toNat_inj, hp] <;> (try rfl)
    · by_cases h : a = a'
      · subst h; simp [hp]
      · simp [h]
    · by_cases h : cramKey i k = cramKey i' k'
      · obtain ⟨rfl, rfl⟩ := cramKey_inj h
        simp [hp]
      · have h' : ¬(i = i' ∧ k = k') := fun hc => h (by rw [hc.1, hc.2])
        simp [h, h']
  · rw [State.memWrite_absent s l v hp]
    simp [hp]

/-- A read of a byte the table does not have answers its free value. -/
theorem State.memRead_sat_absent (s : State) (a : Byte) (h : s.config.satBytes ≤ a.toNat) :
    s.memRead (.sat a) = Config.freeSatByte a := if_neg (Nat.not_lt.mpr h)
theorem State.memRead_cram_absent (s : State) (i : Byte) (k : Fin 3) (h : s.config.palN ≤ i.toNat) :
    s.memRead (.cram i k) = Config.freeCramByte i k := if_neg (Nat.not_lt.mpr h)

@[simp] theorem State.memRead_setR (s : State) (i : Fin 64) (v : Byte) (l : Loc) :
    (s.setR i v).memRead l = s.memRead l := by rcases l with _ | _ | ⟨_ | _, _⟩ | _ <;> rfl
@[simp] theorem State.memRead_setP (s : State) (j : Fin 8) (v : Byte) (l : Loc) :
    (s.setP j v).memRead l = s.memRead l := by rcases l with _ | _ | ⟨_ | _, _⟩ | _ <;> rfl
@[simp] theorem State.memRead_quiet (s : State) (l : Loc) : s.quiet.memRead l = s.memRead l := by
  rcases l with _ | _ | ⟨_ | _, _⟩ | _ <;> rfl
@[simp] theorem State.memRead_reply (s : State) (r : Byte) (l : Loc) : (s.reply r).memRead l = s.memRead l := by
  rcases l with _ | _ | ⟨_ | _, _⟩ | _ <;> rfl
@[simp] theorem State.memRead_emit (s : State) (e : Event) (l : Loc) : (s.emit e).memRead l = s.memRead l := by
  rcases l with _ | _ | ⟨_ | _, _⟩ | _ <;> rfl
@[simp] theorem State.memRead_drawn (s : State) (l : Loc) : s.drawn.memRead l = s.memRead l := by
  rcases l with _ | _ | ⟨_ | _, _⟩ | _ <;> rfl

/-- Reads of tables see the five tables and the table sizes only. -/
theorem State.memRead_congr {s t : State} (h1 : t.pnt = s.pnt) (h2 : t.sat = s.sat) (h3 : t.scrA = s.scrA)
    (h4 : t.scrB = s.scrB) (h5 : t.cram = s.cram) (h6 : t.config = s.config) (l : Loc) : t.memRead l = s.memRead l := by
  rcases l with _ | _ | ⟨_ | _, _⟩ | _ <;> simp [State.memRead, h1, h2, h3, h4, h5, h6]

/-! ## Bit fields -/

theorem getLsbD_putLow6 (x : Byte) (v : BitVec 6) (i : Nat) :
    (putLow6 x v).getLsbD i = if i < 6 then v.getLsbD i else (x.extractLsb' 6 2).getLsbD (i - 6) :=
  BitVec.getLsbD_append

@[simp] theorem low6_putLow6 (x : Byte) (v : BitVec 6) : low6 (putLow6 x v) = v := by
  apply BitVec.eq_of_getLsbD_eq
  intro i hi
  rw [low6, BitVec.getLsbD_extractLsb', getLsbD_putLow6]
  simp [hi]

theorem bit_putLow6 (x : Byte) (v : BitVec 6) (i : Nat) (hi : 6 ≤ i) : bit (putLow6 x v) i = bit x i := by
  rw [bit, getLsbD_putLow6, if_neg (by omega), BitVec.getLsbD_extractLsb', Nat.add_sub_cancel' hi, bit]
  by_cases h : i < 8
  · simp [show i - 6 < 2 by omega]
  · simp [show ¬i - 6 < 2 by omega, BitVec.getLsbD_of_ge x i (by omega)]

@[simp] theorem bit_putBit (x : Byte) (i j : Nat) (b : Bool) (hi : i < 8) :
    bit (putBit x i b) j = if i = j then b else bit x j := by
  by_cases hj : j < 8
  · cases b <;> by_cases h : i = j
    · subst h; simp [bit, putBit, hi]
    · simp [bit, putBit, h, hj, Ne.symm h]
    · subst h; simp [bit, putBit, hi]
    · simp [bit, putBit, h]
  · have h : ¬i = j := by omega
    simp [bit, h, BitVec.getLsbD_of_ge _ j (Nat.le_of_not_lt hj)]

@[simp] theorem low6_putBit (x : Byte) (i : Nat) (b : Bool) (hi : 6 ≤ i) : low6 (putBit x i b) = low6 x := by
  apply BitVec.eq_of_getLsbD_eq
  intro j hj
  have h : ¬i = j := by omega
  have h8 : j < 8 := by omega
  cases b <;> simp [low6, putBit, hj, h8, Ne.symm h]

theorem bits_lt (x : Byte) (lo len : Nat) : bits x lo len < 2 ^ len := Nat.mod_lt _ (Nat.two_pow_pos _)

end Sys2Proof.Machine
end

