-- ==== Sys2Proof/Laws/Ports.lean ====
section
/-! SUPPORT. For each shared operation of the ports, all it can touch (`_touches`) and how the registers or latches
change; provers cite these instead of unfolding the operation. -/
namespace Sys2Proof.Machine

/-! ## What each operation can touch -/

theorem State.pnAdvance_touches (s : State) :
    s.pnAdvance =
      { s with regs := s.pnAdvance.regs, outEvents := s.pnAdvance.outEvents, draws := s.pnAdvance.draws } := by
  unfold State.pnAdvance State.pnAdvanceX State.pnAdvanceY
  dsimp only
  split_ifs <;> rfl

theorem State.pnStepRead_touches (s : State) :
    s.pnStepRead =
      { s with
        phR := s.pnStepRead.phR, regs := s.pnStepRead.regs, outEvents := s.pnStepRead.outEvents
        draws := s.pnStepRead.draws } := by
  unfold State.pnStepRead
  dsimp only
  split_ifs
  · rfl
  · rw [State.pnAdvance_touches]

theorem State.pnStepWrite_touches (s : State) :
    s.pnStepWrite =
      { s with
        phW := s.pnStepWrite.phW, regs := s.pnStepWrite.regs, outEvents := s.pnStepWrite.outEvents
        draws := s.pnStepWrite.draws } := by
  unfold State.pnStepWrite
  dsimp only
  split_ifs
  · rfl
  · rw [State.pnAdvance_touches]

theorem State.saAdvance_touches (s : State) : s.saAdvance = { s with regs := s.saAdvance.regs } := by
  unfold State.saAdvance
  split_ifs <;> rfl

theorem State.scAdvance_touches (s : State) : s.scAdvance = { s with regs := s.scAdvance.regs } := by
  unfold State.scAdvance
  dsimp only
  split_ifs <;> rfl

theorem State.cpAdvance_touches (s : State) : s.cpAdvance = { s with regs := s.cpAdvance.regs } := by
  unfold State.cpAdvance
  split_ifs <;> rfl

theorem State.palStepWrite_touches (s : State) :
    s.palStepWrite =
      { s with
        subW := s.palStepWrite.subW, outEvents := s.palStepWrite.outEvents, regs := s.palStepWrite.regs } := by
  unfold State.palStepWrite State.cpAdvance
  split_ifs <;> rfl

theorem State.palStepRead_touches (s : State) :
    s.palStepRead = { s with subR := s.palStepRead.subR, regs := s.palStepRead.regs } := by
  unfold State.palStepRead State.cpAdvance
  split_ifs <;> rfl

theorem State.restart_touches (s : State) (a : Fin 64) :
    s.restart a =
      { s with
        phR := (s.restart a).phR, phW := (s.restart a).phW, subR := (s.restart a).subR, subW := (s.restart a).subW } := by
  unfold State.restart
  split_ifs <;> rfl

theorem State.addrAdvance_touches (s : State) (f : Bool) :
    s.addrAdvance f = { s with ports := (s.addrAdvance f).ports } := by
  cases f <;> rfl

theorem State.vblankEvent_touches (s : State) : s.vblankEvent = { s with ports := s.vblankEvent.ports } := by
  unfold State.vblankEvent
  split_ifs <;> rfl

theorem State.rasterEvent_touches (s : State) : s.rasterEvent = { s with ports := s.rasterEvent.ports } := by
  unfold State.rasterEvent
  split_ifs <;> rfl

theorem State.statusClear_touches (s : State) (v : Byte) :
    s.statusClear v = { s with ports := (s.statusClear v).ports } := by
  unfold State.statusClear
  split_ifs <;> rfl

theorem State.arrive_touches (s : State) (p : Nat × Nat) :
    s.arrive p = { s with ports := (s.arrive p).ports } := by
  unfold State.arrive
  dsimp only
  by_cases hv : vblankPos s.config s.regs = some p <;> by_cases hr : rasterPos s.config s.regs = some p <;> simp only [hv, hr, if_true, if_false]
  · rw [State.rasterEvent_touches, State.vblankEvent_touches]
  · rw [State.vblankEvent_touches]
  · rw [State.rasterEvent_touches]

theorem State.dot_touches (s : State) :
    s.dot = { s with ports := s.dot.ports, hpos := s.dot.hpos, vpos := s.dot.vpos } := by
  unfold State.dot
  split_ifs
  · rw [State.arrive_touches]; rfl
  · rfl

/-! ## The bytes ports 0 and 2 reach always exist -/

@[simp] theorem State.present_pnPortLoc (s : State) (phase : Fin 2) (c : Config) :
    (s.pnPortLoc phase).present c = true := rfl
@[simp] theorem State.present_scPortLoc (s : State) (c : Config) : s.scPortLoc.present c = true := rfl

/-! ## Registers the cursor operations leave -/

theorem State.R_pnAdvance (s : State) (i : Fin 64) (h0 : i ≠ 0) (h1 : i ≠ 1) : s.pnAdvance.R i = s.R i := by
  unfold State.pnAdvance State.pnAdvanceX State.pnAdvanceY State.pnDraw
  dsimp only
  split_ifs <;> simp [State.setPny, State.setPnx, State.setPnb, Ne.symm h0, Ne.symm h1]

theorem State.R_saAdvance (s : State) (i : Fin 64) :
    s.saAdvance.R i = if sai s.regs ∧ i = 3 then sap s.regs + 1 else s.R i := by
  unfold State.saAdvance
  by_cases h : sai s.regs <;> simp [h, eq_comm]

theorem State.R_cpAdvance (s : State) (i : Fin 64) :
    s.cpAdvance.R i = if cpi s.regs ∧ i = 5 then cpp s.regs + 1 else s.R i := by
  unfold State.cpAdvance
  by_cases h : cpi s.regs <;> simp [h, eq_comm]

theorem State.R_scAdvance (s : State) (i : Fin 64) (h4 : i ≠ 4) (h2 : i ≠ 2) : s.scAdvance.R i = s.R i := by
  unfold State.scAdvance
  dsimp only
  split_ifs <;> simp [State.setScb, Ne.symm h4, Ne.symm h2]

theorem State.P_addrAdvance (s : State) (f : Bool) (j : Fin 8) :
    (s.addrAdvance f).P j = if f ∧ j = 5 then putLow6 (s.P 5) (s.addr + 1) else s.P j := by
  cases f <;> simp [State.addrAdvance, State.setAddr, eq_comm]

/-! ## Phases and sub-counters -/

theorem State.phR_restart (s : State) (a : Fin 64) : (s.restart a).phR = if a = 0 ∨ a = 1 then 0 else s.phR := by
  unfold State.restart; split_ifs <;> rfl

theorem State.phW_restart (s : State) (a : Fin 64) : (s.restart a).phW = if a = 0 ∨ a = 1 then 0 else s.phW := by
  unfold State.restart; split_ifs <;> rfl

theorem State.subR_restart (s : State) (a : Fin 64) : (s.restart a).subR = if a = 5 then 0 else s.subR := by
  unfold State.restart; split_ifs with h1 h2 <;> first | rfl | (subst h2; simp at h1)

theorem State.subW_restart (s : State) (a : Fin 64) : (s.restart a).subW = if a = 5 then 0 else s.subW := by
  unfold State.restart; split_ifs with h1 h2 <;> first | rfl | (subst h2; simp at h1)

theorem Dec.pnBytes_cases (r : Regs) : Dec.pnBytes r = 1 ∨ Dec.pnBytes r = 2 := by
  unfold Dec.pnBytes; split_ifs <;> simp

/-- The pattern-name write step (R134): from phase 0 in a two-byte mode only the phase moves; otherwise the phase wraps
and the cursor advances. -/
theorem State.pnStepWrite_cases (s : State) :
    (s.phW = 0 ∧ Dec.pnBytes s.regs = 2 ∧ s.pnStepWrite = { s with phW := 1 }) ∨
    ((s.phW = 1 ∨ Dec.pnBytes s.regs = 1) ∧ s.pnStepWrite = { s with phW := 0 }.pnAdvance) := by
  have h2 : s.phW = 0 ∨ s.phW = 1 := by omega
  rcases h2 with h | h <;> rcases Dec.pnBytes_cases s.regs with hb | hb <;>
    simp [State.pnStepWrite, nextPhase, h, hb]

/-- The pattern-name read step (R133). -/
theorem State.pnStepRead_cases (s : State) :
    (s.phR = 0 ∧ Dec.pnBytes s.regs = 2 ∧ s.pnStepRead = { s with phR := 1 }) ∨
    ((s.phR = 1 ∨ Dec.pnBytes s.regs = 1) ∧ s.pnStepRead = { s with phR := 0 }.pnAdvance) := by
  have h2 : s.phR = 0 ∨ s.phR = 1 := by omega
  rcases h2 with h | h <;> rcases Dec.pnBytes_cases s.regs with hb | hb <;>
    simp [State.pnStepRead, nextPhase, h, hb]

/-- The cursor advance sees the registers and the draws, and adds to the events. -/
theorem State.pnAdvance_congr {s t : State} (hr : s.regs = t.regs) (hd : s.draws = t.draws)
    (he : s.outEvents = t.outEvents) :
    s.pnAdvance.regs = t.pnAdvance.regs ∧ s.pnAdvance.draws = t.pnAdvance.draws ∧
      s.pnAdvance.outEvents = t.pnAdvance.outEvents := by
  unfold State.pnAdvance State.pnAdvanceX State.pnAdvanceY State.pnDraw State.setPny State.setPnx State.setPnb
  simp only [State.R, hr, hd]
  split_ifs <;> simp [hd, hr, he]

/-- The palette write step (R146): a completed triplet commits and may advance the entry; otherwise only subW moves. -/
theorem State.palStepWrite_cases (s : State) :
    (s.subW = 2 ∧ s.palStepWrite = ({ s with subW := 0 }.emit s.commitEvent).cpAdvance) ∨
    (s.subW ≠ 2 ∧ s.palStepWrite = { s with subW := nextSub s.subW }) := by
  unfold State.palStepWrite
  by_cases h : s.subW = 2
  · exact .inl ⟨h, if_pos h⟩
  · exact .inr ⟨h, if_neg h⟩

/-- The palette read step (R145). -/
theorem State.palStepRead_cases (s : State) :
    (s.subR = 2 ∧ s.palStepRead = { s with subR := 0 }.cpAdvance) ∨
    (s.subR ≠ 2 ∧ s.palStepRead = { s with subR := nextSub s.subR }) := by
  unfold State.palStepRead
  by_cases h : s.subR = 2
  · exact .inl ⟨h, if_pos h⟩
  · exact .inr ⟨h, if_neg h⟩

/-! ## Flags -/

theorem State.P_vblankEvent (s : State) (j : Fin 8) :
    s.vblankEvent.P j = if iev s.regs ∧ j = 6 then putBit (s.P 6) 0 true else s.P j := by
  unfold State.vblankEvent
  by_cases h : iev s.regs <;> simp [h, State.setFv, eq_comm]

theorem State.P_rasterEvent (s : State) (j : Fin 8) :
    s.rasterEvent.P j = if iep s.regs ∧ j = 6 then putBit (s.P 6) 1 true else s.P j := by
  unfold State.rasterEvent
  by_cases h : iep s.regs <;> simp [h, State.setFp, eq_comm]

theorem State.P_statusClear (s : State) (v : Byte) (j : Fin 8) (hj : j ≠ 6) : (s.statusClear v).P j = s.P j := by
  unfold State.statusClear
  split_ifs <;> simp [State.setFv, State.setFp, Ne.symm hj]

theorem State.fv_statusClear (s : State) (v : Byte) : (s.statusClear v).fv = (s.fv && !bit v 0) := by
  unfold State.statusClear
  by_cases h0 : bit v 0 <;> by_cases h1 : bit v 1 <;> simp [h0, h1, State.fv, State.setFv, State.setFp]

theorem State.fp_statusClear (s : State) (v : Byte) : (s.statusClear v).fp = (s.fp && !bit v 1) := by
  unfold State.statusClear
  by_cases h0 : bit v 0 <;> by_cases h1 : bit v 1 <;> simp [h0, h1, State.fp, State.setFv, State.setFp]

/-! ## The pattern-name address (R131) stays in the table -/

theorem pnAddr_lt (r : Regs) (pl : Plane) (row col b : Nat) (hb : b < 2) : pnAddr r pl row col b < 4096 := by
  have hm : md r < 4 := Nat.mod_lt _ (by decide)
  have bound (W sh H row col : Nat) (h : W = 2 ^ sh) (hH : 0 < H) (hW : 0 < W) :
      (row % H) <<< sh + col % W ≤ H * W - 1 := by
    have h1 := Nat.mod_lt row hH
    have h2 := Nat.mod_lt col hW
    have h3 : (row % H + 1) * W ≤ H * W := Nat.mul_le_mul_right _ h1
    rw [Nat.shiftLeft_eq, ← h]
    rw [Nat.add_mul] at h3
    omega
  have hc : (row % Dec.H r) <<< Dec.log2W r + col % Dec.W r ≤ Dec.H r * Dec.W r - 1 := by
    apply bound
    · unfold Dec.log2W Dec.W; split_ifs <;> simp_all
    · unfold Dec.H; split_ifs <;> decide
    · unfold Dec.W; split_ifs <;> decide
  unfold pnAddr
  simp only
  generalize (row % Dec.H r) <<< Dec.log2W r + col % Dec.W r = cell at hc ⊢
  rcases (by omega : md r = 0 ∨ md r = 1 ∨ md r = 2 ∨ md r = 3) with h | h | h | h <;>
    rcases Bool.eq_false_or_eq_true (pgs r) with hp | hp <;> cases pl <;>
    simp [Dec.H, Dec.W, Dec.planeOff, Dec.twoPlane, Dec.pnBytes, h, hp] at hc ⊢ <;> omega

end Sys2Proof.Machine
end

