-- ==== Sys2Proof/Laws/Frames.lean ====
section
/-! SUPPORT. The frame of each shared operation, field by field and through the reads of registers, latches and tables:
what `_touches` does not list is as it was. -/
namespace Sys2Proof.Machine

@[simp] theorem State.pnAdvance_ports (s : State) : (s.pnAdvance).ports = s.ports := by rw [State.pnAdvance_touches]
@[simp] theorem State.pnAdvance_pnt (s : State) : (s.pnAdvance).pnt = s.pnt := by rw [State.pnAdvance_touches]
@[simp] theorem State.pnAdvance_sat (s : State) : (s.pnAdvance).sat = s.sat := by rw [State.pnAdvance_touches]
@[simp] theorem State.pnAdvance_scrA (s : State) : (s.pnAdvance).scrA = s.scrA := by rw [State.pnAdvance_touches]
@[simp] theorem State.pnAdvance_scrB (s : State) : (s.pnAdvance).scrB = s.scrB := by rw [State.pnAdvance_touches]
@[simp] theorem State.pnAdvance_cram (s : State) : (s.pnAdvance).cram = s.cram := by rw [State.pnAdvance_touches]
@[simp] theorem State.pnAdvance_phR (s : State) : (s.pnAdvance).phR = s.phR := by rw [State.pnAdvance_touches]
@[simp] theorem State.pnAdvance_phW (s : State) : (s.pnAdvance).phW = s.phW := by rw [State.pnAdvance_touches]
@[simp] theorem State.pnAdvance_subR (s : State) : (s.pnAdvance).subR = s.subR := by rw [State.pnAdvance_touches]
@[simp] theorem State.pnAdvance_subW (s : State) : (s.pnAdvance).subW = s.subW := by rw [State.pnAdvance_touches]
@[simp] theorem State.pnAdvance_hpos (s : State) : (s.pnAdvance).hpos = s.hpos := by rw [State.pnAdvance_touches]
@[simp] theorem State.pnAdvance_vpos (s : State) : (s.pnAdvance).vpos = s.vpos := by rw [State.pnAdvance_touches]
@[simp] theorem State.pnAdvance_outByte (s : State) : (s.pnAdvance).outByte = s.outByte := by rw [State.pnAdvance_touches]
@[simp] theorem State.pnAdvance_input (s : State) : (s.pnAdvance).input = s.input := by rw [State.pnAdvance_touches]
@[simp] theorem State.pnAdvance_config (s : State) : (s.pnAdvance).config = s.config := by rw [State.pnAdvance_touches]
@[simp] theorem State.memRead_pnAdvance (s : State) (l : Loc) : (s.pnAdvance).memRead l = s.memRead l :=
  State.memRead_congr (by simp) (by simp) (by simp) (by simp) (by simp) (by simp) l
@[simp] theorem State.P_pnAdvance (s : State) (j : Fin 8) : (s.pnAdvance).P j = s.P j := by simp [State.P]

@[simp] theorem State.pnStepRead_ports (s : State) : (s.pnStepRead).ports = s.ports := by rw [State.pnStepRead_touches]
@[simp] theorem State.pnStepRead_pnt (s : State) : (s.pnStepRead).pnt = s.pnt := by rw [State.pnStepRead_touches]
@[simp] theorem State.pnStepRead_sat (s : State) : (s.pnStepRead).sat = s.sat := by rw [State.pnStepRead_touches]
@[simp] theorem State.pnStepRead_scrA (s : State) : (s.pnStepRead).scrA = s.scrA := by rw [State.pnStepRead_touches]
@[simp] theorem State.pnStepRead_scrB (s : State) : (s.pnStepRead).scrB = s.scrB := by rw [State.pnStepRead_touches]
@[simp] theorem State.pnStepRead_cram (s : State) : (s.pnStepRead).cram = s.cram := by rw [State.pnStepRead_touches]
@[simp] theorem State.pnStepRead_phW (s : State) : (s.pnStepRead).phW = s.phW := by rw [State.pnStepRead_touches]
@[simp] theorem State.pnStepRead_subR (s : State) : (s.pnStepRead).subR = s.subR := by rw [State.pnStepRead_touches]
@[simp] theorem State.pnStepRead_subW (s : State) : (s.pnStepRead).subW = s.subW := by rw [State.pnStepRead_touches]
@[simp] theorem State.pnStepRead_hpos (s : State) : (s.pnStepRead).hpos = s.hpos := by rw [State.pnStepRead_touches]
@[simp] theorem State.pnStepRead_vpos (s : State) : (s.pnStepRead).vpos = s.vpos := by rw [State.pnStepRead_touches]
@[simp] theorem State.pnStepRead_outByte (s : State) : (s.pnStepRead).outByte = s.outByte := by rw [State.pnStepRead_touches]
@[simp] theorem State.pnStepRead_input (s : State) : (s.pnStepRead).input = s.input := by rw [State.pnStepRead_touches]
@[simp] theorem State.pnStepRead_config (s : State) : (s.pnStepRead).config = s.config := by rw [State.pnStepRead_touches]
@[simp] theorem State.memRead_pnStepRead (s : State) (l : Loc) : (s.pnStepRead).memRead l = s.memRead l :=
  State.memRead_congr (by simp) (by simp) (by simp) (by simp) (by simp) (by simp) l
@[simp] theorem State.P_pnStepRead (s : State) (j : Fin 8) : (s.pnStepRead).P j = s.P j := by simp [State.P]

@[simp] theorem State.pnStepWrite_ports (s : State) : (s.pnStepWrite).ports = s.ports := by rw [State.pnStepWrite_touches]
@[simp] theorem State.pnStepWrite_pnt (s : State) : (s.pnStepWrite).pnt = s.pnt := by rw [State.pnStepWrite_touches]
@[simp] theorem State.pnStepWrite_sat (s : State) : (s.pnStepWrite).sat = s.sat := by rw [State.pnStepWrite_touches]
@[simp] theorem State.pnStepWrite_scrA (s : State) : (s.pnStepWrite).scrA = s.scrA := by rw [State.pnStepWrite_touches]
@[simp] theorem State.pnStepWrite_scrB (s : State) : (s.pnStepWrite).scrB = s.scrB := by rw [State.pnStepWrite_touches]
@[simp] theorem State.pnStepWrite_cram (s : State) : (s.pnStepWrite).cram = s.cram := by rw [State.pnStepWrite_touches]
@[simp] theorem State.pnStepWrite_phR (s : State) : (s.pnStepWrite).phR = s.phR := by rw [State.pnStepWrite_touches]
@[simp] theorem State.pnStepWrite_subR (s : State) : (s.pnStepWrite).subR = s.subR := by rw [State.pnStepWrite_touches]
@[simp] theorem State.pnStepWrite_subW (s : State) : (s.pnStepWrite).subW = s.subW := by rw [State.pnStepWrite_touches]
@[simp] theorem State.pnStepWrite_hpos (s : State) : (s.pnStepWrite).hpos = s.hpos := by rw [State.pnStepWrite_touches]
@[simp] theorem State.pnStepWrite_vpos (s : State) : (s.pnStepWrite).vpos = s.vpos := by rw [State.pnStepWrite_touches]
@[simp] theorem State.pnStepWrite_outByte (s : State) : (s.pnStepWrite).outByte = s.outByte := by rw [State.pnStepWrite_touches]
@[simp] theorem State.pnStepWrite_input (s : State) : (s.pnStepWrite).input = s.input := by rw [State.pnStepWrite_touches]
@[simp] theorem State.pnStepWrite_config (s : State) : (s.pnStepWrite).config = s.config := by rw [State.pnStepWrite_touches]
@[simp] theorem State.memRead_pnStepWrite (s : State) (l : Loc) : (s.pnStepWrite).memRead l = s.memRead l :=
  State.memRead_congr (by simp) (by simp) (by simp) (by simp) (by simp) (by simp) l
@[simp] theorem State.P_pnStepWrite (s : State) (j : Fin 8) : (s.pnStepWrite).P j = s.P j := by simp [State.P]

@[simp] theorem State.saAdvance_ports (s : State) : (s.saAdvance).ports = s.ports := by rw [State.saAdvance_touches]
@[simp] theorem State.saAdvance_pnt (s : State) : (s.saAdvance).pnt = s.pnt := by rw [State.saAdvance_touches]
@[simp] theorem State.saAdvance_sat (s : State) : (s.saAdvance).sat = s.sat := by rw [State.saAdvance_touches]
@[simp] theorem State.saAdvance_scrA (s : State) : (s.saAdvance).scrA = s.scrA := by rw [State.saAdvance_touches]
@[simp] theorem State.saAdvance_scrB (s : State) : (s.saAdvance).scrB = s.scrB := by rw [State.saAdvance_touches]
@[simp] theorem State.saAdvance_cram (s : State) : (s.saAdvance).cram = s.cram := by rw [State.saAdvance_touches]
@[simp] theorem State.saAdvance_phR (s : State) : (s.saAdvance).phR = s.phR := by rw [State.saAdvance_touches]
@[simp] theorem State.saAdvance_phW (s : State) : (s.saAdvance).phW = s.phW := by rw [State.saAdvance_touches]
@[simp] theorem State.saAdvance_subR (s : State) : (s.saAdvance).subR = s.subR := by rw [State.saAdvance_touches]
@[simp] theorem State.saAdvance_subW (s : State) : (s.saAdvance).subW = s.subW := by rw [State.saAdvance_touches]
@[simp] theorem State.saAdvance_hpos (s : State) : (s.saAdvance).hpos = s.hpos := by rw [State.saAdvance_touches]
@[simp] theorem State.saAdvance_vpos (s : State) : (s.saAdvance).vpos = s.vpos := by rw [State.saAdvance_touches]
@[simp] theorem State.saAdvance_outByte (s : State) : (s.saAdvance).outByte = s.outByte := by rw [State.saAdvance_touches]
@[simp] theorem State.saAdvance_outEvents (s : State) : (s.saAdvance).outEvents = s.outEvents := by rw [State.saAdvance_touches]
@[simp] theorem State.saAdvance_draws (s : State) : (s.saAdvance).draws = s.draws := by rw [State.saAdvance_touches]
@[simp] theorem State.saAdvance_input (s : State) : (s.saAdvance).input = s.input := by rw [State.saAdvance_touches]
@[simp] theorem State.saAdvance_config (s : State) : (s.saAdvance).config = s.config := by rw [State.saAdvance_touches]
@[simp] theorem State.memRead_saAdvance (s : State) (l : Loc) : (s.saAdvance).memRead l = s.memRead l :=
  State.memRead_congr (by simp) (by simp) (by simp) (by simp) (by simp) (by simp) l
@[simp] theorem State.P_saAdvance (s : State) (j : Fin 8) : (s.saAdvance).P j = s.P j := by simp [State.P]

@[simp] theorem State.scAdvance_ports (s : State) : (s.scAdvance).ports = s.ports := by rw [State.scAdvance_touches]
@[simp] theorem State.scAdvance_pnt (s : State) : (s.scAdvance).pnt = s.pnt := by rw [State.scAdvance_touches]
@[simp] theorem State.scAdvance_sat (s : State) : (s.scAdvance).sat = s.sat := by rw [State.scAdvance_touches]
@[simp] theorem State.scAdvance_scrA (s : State) : (s.scAdvance).scrA = s.scrA := by rw [State.scAdvance_touches]
@[simp] theorem State.scAdvance_scrB (s : State) : (s.scAdvance).scrB = s.scrB := by rw [State.scAdvance_touches]
@[simp] theorem State.scAdvance_cram (s : State) : (s.scAdvance).cram = s.cram := by rw [State.scAdvance_touches]
@[simp] theorem State.scAdvance_phR (s : State) : (s.scAdvance).phR = s.phR := by rw [State.scAdvance_touches]
@[simp] theorem State.scAdvance_phW (s : State) : (s.scAdvance).phW = s.phW := by rw [State.scAdvance_touches]
@[simp] theorem State.scAdvance_subR (s : State) : (s.scAdvance).subR = s.subR := by rw [State.scAdvance_touches]
@[simp] theorem State.scAdvance_subW (s : State) : (s.scAdvance).subW = s.subW := by rw [State.scAdvance_touches]
@[simp] theorem State.scAdvance_hpos (s : State) : (s.scAdvance).hpos = s.hpos := by rw [State.scAdvance_touches]
@[simp] theorem State.scAdvance_vpos (s : State) : (s.scAdvance).vpos = s.vpos := by rw [State.scAdvance_touches]
@[simp] theorem State.scAdvance_outByte (s : State) : (s.scAdvance).outByte = s.outByte := by rw [State.scAdvance_touches]
@[simp] theorem State.scAdvance_outEvents (s : State) : (s.scAdvance).outEvents = s.outEvents := by rw [State.scAdvance_touches]
@[simp] theorem State.scAdvance_draws (s : State) : (s.scAdvance).draws = s.draws := by rw [State.scAdvance_touches]
@[simp] theorem State.scAdvance_input (s : State) : (s.scAdvance).input = s.input := by rw [State.scAdvance_touches]
@[simp] theorem State.scAdvance_config (s : State) : (s.scAdvance).config = s.config := by rw [State.scAdvance_touches]
@[simp] theorem State.memRead_scAdvance (s : State) (l : Loc) : (s.scAdvance).memRead l = s.memRead l :=
  State.memRead_congr (by simp) (by simp) (by simp) (by simp) (by simp) (by simp) l
@[simp] theorem State.P_scAdvance (s : State) (j : Fin 8) : (s.scAdvance).P j = s.P j := by simp [State.P]

@[simp] theorem State.cpAdvance_ports (s : State) : (s.cpAdvance).ports = s.ports := by rw [State.cpAdvance_touches]
@[simp] theorem State.cpAdvance_pnt (s : State) : (s.cpAdvance).pnt = s.pnt := by rw [State.cpAdvance_touches]
@[simp] theorem State.cpAdvance_sat (s : State) : (s.cpAdvance).sat = s.sat := by rw [State.cpAdvance_touches]
@[simp] theorem State.cpAdvance_scrA (s : State) : (s.cpAdvance).scrA = s.scrA := by rw [State.cpAdvance_touches]
@[simp] theorem State.cpAdvance_scrB (s : State) : (s.cpAdvance).scrB = s.scrB := by rw [State.cpAdvance_touches]
@[simp] theorem State.cpAdvance_cram (s : State) : (s.cpAdvance).cram = s.cram := by rw [State.cpAdvance_touches]
@[simp] theorem State.cpAdvance_phR (s : State) : (s.cpAdvance).phR = s.phR := by rw [State.cpAdvance_touches]
@[simp] theorem State.cpAdvance_phW (s : State) : (s.cpAdvance).phW = s.phW := by rw [State.cpAdvance_touches]
@[simp] theorem State.cpAdvance_subR (s : State) : (s.cpAdvance).subR = s.subR := by rw [State.cpAdvance_touches]
@[simp] theorem State.cpAdvance_subW (s : State) : (s.cpAdvance).subW = s.subW := by rw [State.cpAdvance_touches]
@[simp] theorem State.cpAdvance_hpos (s : State) : (s.cpAdvance).hpos = s.hpos := by rw [State.cpAdvance_touches]
@[simp] theorem State.cpAdvance_vpos (s : State) : (s.cpAdvance).vpos = s.vpos := by rw [State.cpAdvance_touches]
@[simp] theorem State.cpAdvance_outByte (s : State) : (s.cpAdvance).outByte = s.outByte := by rw [State.cpAdvance_touches]
@[simp] theorem State.cpAdvance_outEvents (s : State) : (s.cpAdvance).outEvents = s.outEvents := by rw [State.cpAdvance_touches]
@[simp] theorem State.cpAdvance_draws (s : State) : (s.cpAdvance).draws = s.draws := by rw [State.cpAdvance_touches]
@[simp] theorem State.cpAdvance_input (s : State) : (s.cpAdvance).input = s.input := by rw [State.cpAdvance_touches]
@[simp] theorem State.cpAdvance_config (s : State) : (s.cpAdvance).config = s.config := by rw [State.cpAdvance_touches]
@[simp] theorem State.memRead_cpAdvance (s : State) (l : Loc) : (s.cpAdvance).memRead l = s.memRead l :=
  State.memRead_congr (by simp) (by simp) (by simp) (by simp) (by simp) (by simp) l
@[simp] theorem State.P_cpAdvance (s : State) (j : Fin 8) : (s.cpAdvance).P j = s.P j := by simp [State.P]

@[simp] theorem State.palStepWrite_ports (s : State) : (s.palStepWrite).ports = s.ports := by rw [State.palStepWrite_touches]
@[simp] theorem State.palStepWrite_pnt (s : State) : (s.palStepWrite).pnt = s.pnt := by rw [State.palStepWrite_touches]
@[simp] theorem State.palStepWrite_sat (s : State) : (s.palStepWrite).sat = s.sat := by rw [State.palStepWrite_touches]
@[simp] theorem State.palStepWrite_scrA (s : State) : (s.palStepWrite).scrA = s.scrA := by rw [State.palStepWrite_touches]
@[simp] theorem State.palStepWrite_scrB (s : State) : (s.palStepWrite).scrB = s.scrB := by rw [State.palStepWrite_touches]
@[simp] theorem State.palStepWrite_cram (s : State) : (s.palStepWrite).cram = s.cram := by rw [State.palStepWrite_touches]
@[simp] theorem State.palStepWrite_phR (s : State) : (s.palStepWrite).phR = s.phR := by rw [State.palStepWrite_touches]
@[simp] theorem State.palStepWrite_phW (s : State) : (s.palStepWrite).phW = s.phW := by rw [State.palStepWrite_touches]
@[simp] theorem State.palStepWrite_subR (s : State) : (s.palStepWrite).subR = s.subR := by rw [State.palStepWrite_touches]
@[simp] theorem State.palStepWrite_hpos (s : State) : (s.palStepWrite).hpos = s.hpos := by rw [State.palStepWrite_touches]
@[simp] theorem State.palStepWrite_vpos (s : State) : (s.palStepWrite).vpos = s.vpos := by rw [State.palStepWrite_touches]
@[simp] theorem State.palStepWrite_outByte (s : State) : (s.palStepWrite).outByte = s.outByte := by rw [State.palStepWrite_touches]
@[simp] theorem State.palStepWrite_draws (s : State) : (s.palStepWrite).draws = s.draws := by rw [State.palStepWrite_touches]
@[simp] theorem State.palStepWrite_input (s : State) : (s.palStepWrite).input = s.input := by rw [State.palStepWrite_touches]
@[simp] theorem State.palStepWrite_config (s : State) : (s.palStepWrite).config = s.config := by rw [State.palStepWrite_touches]
@[simp] theorem State.memRead_palStepWrite (s : State) (l : Loc) : (s.palStepWrite).memRead l = s.memRead l :=
  State.memRead_congr (by simp) (by simp) (by simp) (by simp) (by simp) (by simp) l
@[simp] theorem State.P_palStepWrite (s : State) (j : Fin 8) : (s.palStepWrite).P j = s.P j := by simp [State.P]

@[simp] theorem State.palStepRead_ports (s : State) : (s.palStepRead).ports = s.ports := by rw [State.palStepRead_touches]
@[simp] theorem State.palStepRead_pnt (s : State) : (s.palStepRead).pnt = s.pnt := by rw [State.palStepRead_touches]
@[simp] theorem State.palStepRead_sat (s : State) : (s.palStepRead).sat = s.sat := by rw [State.palStepRead_touches]
@[simp] theorem State.palStepRead_scrA (s : State) : (s.palStepRead).scrA = s.scrA := by rw [State.palStepRead_touches]
@[simp] theorem State.palStepRead_scrB (s : State) : (s.palStepRead).scrB = s.scrB := by rw [State.palStepRead_touches]
@[simp] theorem State.palStepRead_cram (s : State) : (s.palStepRead).cram = s.cram := by rw [State.palStepRead_touches]
@[simp] theorem State.palStepRead_phR (s : State) : (s.palStepRead).phR = s.phR := by rw [State.palStepRead_touches]
@[simp] theorem State.palStepRead_phW (s : State) : (s.palStepRead).phW = s.phW := by rw [State.palStepRead_touches]
@[simp] theorem State.palStepRead_subW (s : State) : (s.palStepRead).subW = s.subW := by rw [State.palStepRead_touches]
@[simp] theorem State.palStepRead_hpos (s : State) : (s.palStepRead).hpos = s.hpos := by rw [State.palStepRead_touches]
@[simp] theorem State.palStepRead_vpos (s : State) : (s.palStepRead).vpos = s.vpos := by rw [State.palStepRead_touches]
@[simp] theorem State.palStepRead_outByte (s : State) : (s.palStepRead).outByte = s.outByte := by rw [State.palStepRead_touches]
@[simp] theorem State.palStepRead_outEvents (s : State) : (s.palStepRead).outEvents = s.outEvents := by rw [State.palStepRead_touches]
@[simp] theorem State.palStepRead_draws (s : State) : (s.palStepRead).draws = s.draws := by rw [State.palStepRead_touches]
@[simp] theorem State.palStepRead_input (s : State) : (s.palStepRead).input = s.input := by rw [State.palStepRead_touches]
@[simp] theorem State.palStepRead_config (s : State) : (s.palStepRead).config = s.config := by rw [State.palStepRead_touches]
@[simp] theorem State.memRead_palStepRead (s : State) (l : Loc) : (s.palStepRead).memRead l = s.memRead l :=
  State.memRead_congr (by simp) (by simp) (by simp) (by simp) (by simp) (by simp) l
@[simp] theorem State.P_palStepRead (s : State) (j : Fin 8) : (s.palStepRead).P j = s.P j := by simp [State.P]

@[simp] theorem State.restart_regs (s : State) (a : Fin 64) : (s.restart a).regs = s.regs := by rw [State.restart_touches]
@[simp] theorem State.restart_ports (s : State) (a : Fin 64) : (s.restart a).ports = s.ports := by rw [State.restart_touches]
@[simp] theorem State.restart_pnt (s : State) (a : Fin 64) : (s.restart a).pnt = s.pnt := by rw [State.restart_touches]
@[simp] theorem State.restart_sat (s : State) (a : Fin 64) : (s.restart a).sat = s.sat := by rw [State.restart_touches]
@[simp] theorem State.restart_scrA (s : State) (a : Fin 64) : (s.restart a).scrA = s.scrA := by rw [State.restart_touches]
@[simp] theorem State.restart_scrB (s : State) (a : Fin 64) : (s.restart a).scrB = s.scrB := by rw [State.restart_touches]
@[simp] theorem State.restart_cram (s : State) (a : Fin 64) : (s.restart a).cram = s.cram := by rw [State.restart_touches]
@[simp] theorem State.restart_hpos (s : State) (a : Fin 64) : (s.restart a).hpos = s.hpos := by rw [State.restart_touches]
@[simp] theorem State.restart_vpos (s : State) (a : Fin 64) : (s.restart a).vpos = s.vpos := by rw [State.restart_touches]
@[simp] theorem State.restart_outByte (s : State) (a : Fin 64) : (s.restart a).outByte = s.outByte := by rw [State.restart_touches]
@[simp] theorem State.restart_outEvents (s : State) (a : Fin 64) : (s.restart a).outEvents = s.outEvents := by rw [State.restart_touches]
@[simp] theorem State.restart_draws (s : State) (a : Fin 64) : (s.restart a).draws = s.draws := by rw [State.restart_touches]
@[simp] theorem State.restart_input (s : State) (a : Fin 64) : (s.restart a).input = s.input := by rw [State.restart_touches]
@[simp] theorem State.restart_config (s : State) (a : Fin 64) : (s.restart a).config = s.config := by rw [State.restart_touches]
@[simp] theorem State.memRead_restart (s : State) (a : Fin 64) (l : Loc) : (s.restart a).memRead l = s.memRead l :=
  State.memRead_congr (by simp) (by simp) (by simp) (by simp) (by simp) (by simp) l
@[simp] theorem State.R_restart (s : State) (a : Fin 64) (i : Fin 64) : (s.restart a).R i = s.R i := by simp [State.R]
@[simp] theorem State.P_restart (s : State) (a : Fin 64) (j : Fin 8) : (s.restart a).P j = s.P j := by simp [State.P]

@[simp] theorem State.addrAdvance_regs (s : State) (f : Bool) : (s.addrAdvance f).regs = s.regs := by rw [State.addrAdvance_touches]
@[simp] theorem State.addrAdvance_pnt (s : State) (f : Bool) : (s.addrAdvance f).pnt = s.pnt := by rw [State.addrAdvance_touches]
@[simp] theorem State.addrAdvance_sat (s : State) (f : Bool) : (s.addrAdvance f).sat = s.sat := by rw [State.addrAdvance_touches]
@[simp] theorem State.addrAdvance_scrA (s : State) (f : Bool) : (s.addrAdvance f).scrA = s.scrA := by rw [State.addrAdvance_touches]
@[simp] theorem State.addrAdvance_scrB (s : State) (f : Bool) : (s.addrAdvance f).scrB = s.scrB := by rw [State.addrAdvance_touches]
@[simp] theorem State.addrAdvance_cram (s : State) (f : Bool) : (s.addrAdvance f).cram = s.cram := by rw [State.addrAdvance_touches]
@[simp] theorem State.addrAdvance_phR (s : State) (f : Bool) : (s.addrAdvance f).phR = s.phR := by rw [State.addrAdvance_touches]
@[simp] theorem State.addrAdvance_phW (s : State) (f : Bool) : (s.addrAdvance f).phW = s.phW := by rw [State.addrAdvance_touches]
@[simp] theorem State.addrAdvance_subR (s : State) (f : Bool) : (s.addrAdvance f).subR = s.subR := by rw [State.addrAdvance_touches]
@[simp] theorem State.addrAdvance_subW (s : State) (f : Bool) : (s.addrAdvance f).subW = s.subW := by rw [State.addrAdvance_touches]
@[simp] theorem State.addrAdvance_hpos (s : State) (f : Bool) : (s.addrAdvance f).hpos = s.hpos := by rw [State.addrAdvance_touches]
@[simp] theorem State.addrAdvance_vpos (s : State) (f : Bool) : (s.addrAdvance f).vpos = s.vpos := by rw [State.addrAdvance_touches]
@[simp] theorem State.addrAdvance_outByte (s : State) (f : Bool) : (s.addrAdvance f).outByte = s.outByte := by rw [State.addrAdvance_touches]
@[simp] theorem State.addrAdvance_outEvents (s : State) (f : Bool) : (s.addrAdvance f).outEvents = s.outEvents := by rw [State.addrAdvance_touches]
@[simp] theorem State.addrAdvance_draws (s : State) (f : Bool) : (s.addrAdvance f).draws = s.draws := by rw [State.addrAdvance_touches]
@[simp] theorem State.addrAdvance_input (s : State) (f : Bool) : (s.addrAdvance f).input = s.input := by rw [State.addrAdvance_touches]
@[simp] theorem State.addrAdvance_config (s : State) (f : Bool) : (s.addrAdvance f).config = s.config := by rw [State.addrAdvance_touches]
@[simp] theorem State.memRead_addrAdvance (s : State) (f : Bool) (l : Loc) : (s.addrAdvance f).memRead l = s.memRead l :=
  State.memRead_congr (by simp) (by simp) (by simp) (by simp) (by simp) (by simp) l
@[simp] theorem State.R_addrAdvance (s : State) (f : Bool) (i : Fin 64) : (s.addrAdvance f).R i = s.R i := by simp [State.R]

@[simp] theorem State.statusClear_regs (s : State) (v : Byte) : (s.statusClear v).regs = s.regs := by rw [State.statusClear_touches]
@[simp] theorem State.statusClear_pnt (s : State) (v : Byte) : (s.statusClear v).pnt = s.pnt := by rw [State.statusClear_touches]
@[simp] theorem State.statusClear_sat (s : State) (v : Byte) : (s.statusClear v).sat = s.sat := by rw [State.statusClear_touches]
@[simp] theorem State.statusClear_scrA (s : State) (v : Byte) : (s.statusClear v).scrA = s.scrA := by rw [State.statusClear_touches]
@[simp] theorem State.statusClear_scrB (s : State) (v : Byte) : (s.statusClear v).scrB = s.scrB := by rw [State.statusClear_touches]
@[simp] theorem State.statusClear_cram (s : State) (v : Byte) : (s.statusClear v).cram = s.cram := by rw [State.statusClear_touches]
@[simp] theorem State.statusClear_phR (s : State) (v : Byte) : (s.statusClear v).phR = s.phR := by rw [State.statusClear_touches]
@[simp] theorem State.statusClear_phW (s : State) (v : Byte) : (s.statusClear v).phW = s.phW := by rw [State.statusClear_touches]
@[simp] theorem State.statusClear_subR (s : State) (v : Byte) : (s.statusClear v).subR = s.subR := by rw [State.statusClear_touches]
@[simp] theorem State.statusClear_subW (s : State) (v : Byte) : (s.statusClear v).subW = s.subW := by rw [State.statusClear_touches]
@[simp] theorem State.statusClear_hpos (s : State) (v : Byte) : (s.statusClear v).hpos = s.hpos := by rw [State.statusClear_touches]
@[simp] theorem State.statusClear_vpos (s : State) (v : Byte) : (s.statusClear v).vpos = s.vpos := by rw [State.statusClear_touches]
@[simp] theorem State.statusClear_outByte (s : State) (v : Byte) : (s.statusClear v).outByte = s.outByte := by rw [State.statusClear_touches]
@[simp] theorem State.statusClear_outEvents (s : State) (v : Byte) : (s.statusClear v).outEvents = s.outEvents := by rw [State.statusClear_touches]
@[simp] theorem State.statusClear_draws (s : State) (v : Byte) : (s.statusClear v).draws = s.draws := by rw [State.statusClear_touches]
@[simp] theorem State.statusClear_input (s : State) (v : Byte) : (s.statusClear v).input = s.input := by rw [State.statusClear_touches]
@[simp] theorem State.statusClear_config (s : State) (v : Byte) : (s.statusClear v).config = s.config := by rw [State.statusClear_touches]
@[simp] theorem State.memRead_statusClear (s : State) (v : Byte) (l : Loc) : (s.statusClear v).memRead l = s.memRead l :=
  State.memRead_congr (by simp) (by simp) (by simp) (by simp) (by simp) (by simp) l
@[simp] theorem State.R_statusClear (s : State) (v : Byte) (i : Fin 64) : (s.statusClear v).R i = s.R i := by simp [State.R]

@[simp] theorem State.arrive_regs (s : State) (p : Nat × Nat) : (s.arrive p).regs = s.regs := by rw [State.arrive_touches]
@[simp] theorem State.arrive_pnt (s : State) (p : Nat × Nat) : (s.arrive p).pnt = s.pnt := by rw [State.arrive_touches]
@[simp] theorem State.arrive_sat (s : State) (p : Nat × Nat) : (s.arrive p).sat = s.sat := by rw [State.arrive_touches]
@[simp] theorem State.arrive_scrA (s : State) (p : Nat × Nat) : (s.arrive p).scrA = s.scrA := by rw [State.arrive_touches]
@[simp] theorem State.arrive_scrB (s : State) (p : Nat × Nat) : (s.arrive p).scrB = s.scrB := by rw [State.arrive_touches]
@[simp] theorem State.arrive_cram (s : State) (p : Nat × Nat) : (s.arrive p).cram = s.cram := by rw [State.arrive_touches]
@[simp] theorem State.arrive_phR (s : State) (p : Nat × Nat) : (s.arrive p).phR = s.phR := by rw [State.arrive_touches]
@[simp] theorem State.arrive_phW (s : State) (p : Nat × Nat) : (s.arrive p).phW = s.phW := by rw [State.arrive_touches]
@[simp] theorem State.arrive_subR (s : State) (p : Nat × Nat) : (s.arrive p).subR = s.subR := by rw [State.arrive_touches]
@[simp] theorem State.arrive_subW (s : State) (p : Nat × Nat) : (s.arrive p).subW = s.subW := by rw [State.arrive_touches]
@[simp] theorem State.arrive_hpos (s : State) (p : Nat × Nat) : (s.arrive p).hpos = s.hpos := by rw [State.arrive_touches]
@[simp] theorem State.arrive_vpos (s : State) (p : Nat × Nat) : (s.arrive p).vpos = s.vpos := by rw [State.arrive_touches]
@[simp] theorem State.arrive_outByte (s : State) (p : Nat × Nat) : (s.arrive p).outByte = s.outByte := by rw [State.arrive_touches]
@[simp] theorem State.arrive_outEvents (s : State) (p : Nat × Nat) : (s.arrive p).outEvents = s.outEvents := by rw [State.arrive_touches]
@[simp] theorem State.arrive_draws (s : State) (p : Nat × Nat) : (s.arrive p).draws = s.draws := by rw [State.arrive_touches]
@[simp] theorem State.arrive_input (s : State) (p : Nat × Nat) : (s.arrive p).input = s.input := by rw [State.arrive_touches]
@[simp] theorem State.arrive_config (s : State) (p : Nat × Nat) : (s.arrive p).config = s.config := by rw [State.arrive_touches]
@[simp] theorem State.memRead_arrive (s : State) (p : Nat × Nat) (l : Loc) : (s.arrive p).memRead l = s.memRead l :=
  State.memRead_congr (by simp) (by simp) (by simp) (by simp) (by simp) (by simp) l
@[simp] theorem State.R_arrive (s : State) (p : Nat × Nat) (i : Fin 64) : (s.arrive p).R i = s.R i := by simp [State.R]

@[simp] theorem State.dot_regs (s : State) : (s.dot).regs = s.regs := by rw [State.dot_touches]
@[simp] theorem State.dot_pnt (s : State) : (s.dot).pnt = s.pnt := by rw [State.dot_touches]
@[simp] theorem State.dot_sat (s : State) : (s.dot).sat = s.sat := by rw [State.dot_touches]
@[simp] theorem State.dot_scrA (s : State) : (s.dot).scrA = s.scrA := by rw [State.dot_touches]
@[simp] theorem State.dot_scrB (s : State) : (s.dot).scrB = s.scrB := by rw [State.dot_touches]
@[simp] theorem State.dot_cram (s : State) : (s.dot).cram = s.cram := by rw [State.dot_touches]
@[simp] theorem State.dot_phR (s : State) : (s.dot).phR = s.phR := by rw [State.dot_touches]
@[simp] theorem State.dot_phW (s : State) : (s.dot).phW = s.phW := by rw [State.dot_touches]
@[simp] theorem State.dot_subR (s : State) : (s.dot).subR = s.subR := by rw [State.dot_touches]
@[simp] theorem State.dot_subW (s : State) : (s.dot).subW = s.subW := by rw [State.dot_touches]
@[simp] theorem State.dot_outByte (s : State) : (s.dot).outByte = s.outByte := by rw [State.dot_touches]
@[simp] theorem State.dot_outEvents (s : State) : (s.dot).outEvents = s.outEvents := by rw [State.dot_touches]
@[simp] theorem State.dot_draws (s : State) : (s.dot).draws = s.draws := by rw [State.dot_touches]
@[simp] theorem State.dot_input (s : State) : (s.dot).input = s.input := by rw [State.dot_touches]
@[simp] theorem State.dot_config (s : State) : (s.dot).config = s.config := by rw [State.dot_touches]
@[simp] theorem State.memRead_dot (s : State) (l : Loc) : (s.dot).memRead l = s.memRead l :=
  State.memRead_congr (by simp) (by simp) (by simp) (by simp) (by simp) (by simp) l
@[simp] theorem State.R_dot (s : State) (i : Fin 64) : (s.dot).R i = s.R i := by simp [State.R]

/-! ## The reset operation (R260) -/

@[simp] theorem reg_clearRegs (r : Regs) (i : Fin 64) :
    reg (clearRegs r) i = if i.val ≤ 38 ∨ 47 ≤ i.val ∧ i.val ≤ 49 then 0 else reg r i := by
  simp [clearRegs, reg, resetClears]

/-- Two register banks that agree at every number are equal. -/
theorem regs_ext {r r' : Regs} (h : ∀ i, reg r i = reg r' i) : r = r' :=
  Vector.ext fun i hi => h ⟨i, hi⟩

@[simp] theorem State.resetOp_regs (s : State) : s.resetOp.regs = clearRegs s.regs := rfl

theorem State.R_resetOp (s : State) (i : Fin 64) :
    s.resetOp.R i = if i.val ≤ 38 ∨ 47 ≤ i.val ∧ i.val ≤ 49 then 0 else s.R i := by
  simp [State.resetOp, State.R]

@[simp] theorem State.P_resetOp (s : State) (j : Fin 8) : s.resetOp.P j = 0 := by simp [State.resetOp, State.P]

/-- After the reset operation every byte a table has reads 0; a byte it does not have reads as before. -/
@[simp] theorem State.memRead_resetOp (s : State) (l : Loc) :
    s.resetOp.memRead l = if l.present s.config then 0 else s.memRead l := by
  rcases l with a | a | ⟨_ | _, a⟩ | ⟨i, k⟩ <;>
    simp +contextual [State.memRead, State.resetOp, Memory.read, Loc.present]

@[simp] theorem State.resetOp_pnt (s : State) : s.resetOp.pnt = [] := by simp [State.resetOp]
@[simp] theorem State.resetOp_sat (s : State) : s.resetOp.sat = [] := by simp [State.resetOp]
@[simp] theorem State.resetOp_scrA (s : State) : s.resetOp.scrA = [] := by simp [State.resetOp]
@[simp] theorem State.resetOp_scrB (s : State) : s.resetOp.scrB = [] := by simp [State.resetOp]
@[simp] theorem State.resetOp_cram (s : State) : s.resetOp.cram = [] := by simp [State.resetOp]
@[simp] theorem State.resetOp_phR (s : State) : s.resetOp.phR = 0 := by simp [State.resetOp]
@[simp] theorem State.resetOp_phW (s : State) : s.resetOp.phW = 0 := by simp [State.resetOp]
@[simp] theorem State.resetOp_subR (s : State) : s.resetOp.subR = 0 := by simp [State.resetOp]
@[simp] theorem State.resetOp_subW (s : State) : s.resetOp.subW = 0 := by simp [State.resetOp]
@[simp] theorem State.resetOp_hpos (s : State) : s.resetOp.hpos = s.hpos := by simp [State.resetOp]
@[simp] theorem State.resetOp_vpos (s : State) : s.resetOp.vpos = s.vpos := by simp [State.resetOp]
@[simp] theorem State.resetOp_outByte (s : State) : s.resetOp.outByte = s.outByte := by simp [State.resetOp]
@[simp] theorem State.resetOp_outEvents (s : State) : s.resetOp.outEvents = s.outEvents := by simp [State.resetOp]
@[simp] theorem State.resetOp_draws (s : State) : s.resetOp.draws = s.draws := by simp [State.resetOp]
@[simp] theorem State.resetOp_input (s : State) : s.resetOp.input = s.input := by simp [State.resetOp]
@[simp] theorem State.resetOp_config (s : State) : s.resetOp.config = s.config := by simp [State.resetOp]

end Sys2Proof.Machine
end

