-- ==== Sys2Proof/Laws/Crtc.lean ====
section
/-! SUPPORT. The laws of the beam: where it goes, what an arrival does to the flags, and when a position is one of the
two compared (R222 to R224 of 46_crtc.md, R241 of 60_exceptions.md). -/
namespace Sys2Proof.Machine

theorem htl_lt (r : Regs) : htl r < 256 := (reg r 39).isLt

theorem vtl_lt (r : Regs) : vtl r < 512 := by
  have h1 := bits_lt (reg r 46) 0 1
  have h2 := (reg r 43).isLt
  unfold vtl
  omega

theorem htotal_default (r : Regs) : Dec.htotal Config.default r = 8 * htl r := rfl

/-- At the default H_UNIT the 11 bits of hpos hold every dot of a line. -/
theorem htotal_default_le (r : Regs) : Dec.htotal Config.default r ≤ 2048 := by
  have := htl_lt r
  rw [htotal_default]
  omega

theorem geometryValid_iff (c : Config) (r : Regs) :
    geometryValid c r = true ↔ 0 < Dec.htotal c r ∧ 0 < Dec.vtotal r := by
  simp [geometryValid]

theorem State.beamNext_fst (s : State) :
    s.beamNext.1 = if s.hpos.toNat + 1 < Dec.htotal s.config s.regs then s.hpos.toNat + 1 else 0 := by
  by_cases h : s.hpos.toNat + 1 < Dec.htotal s.config s.regs
  · simp [State.beamNext, h, Nat.not_le.mpr h]
  · simp [State.beamNext, h, Nat.not_lt.mp h]

theorem State.beamNext_snd (s : State) :
    s.beamNext.2 =
      if s.hpos.toNat + 1 < Dec.htotal s.config s.regs then s.vpos.toNat
      else if s.vpos.toNat + 1 < Dec.vtotal s.regs then s.vpos.toNat + 1 else 0 := by
  by_cases h : s.hpos.toNat + 1 < Dec.htotal s.config s.regs
  · simp [State.beamNext, h, Nat.not_le.mpr h]
  · by_cases h' : s.vpos.toNat + 1 < Dec.vtotal s.regs
    · simp [State.beamNext, h, h', Nat.not_lt.mp h, Nat.not_le.mpr h']
    · simp [State.beamNext, h, h', Nat.not_lt.mp h, Nat.not_lt.mp h']

/-- An arrival sets FV exactly at the vblank position with IEV set; nothing clears it. -/
theorem State.fv_arrive (s : State) (p : Nat × Nat) :
    (s.arrive p).fv = (s.fv || (decide (vblankPos s.config s.regs = some p) && iev s.regs)) := by
  unfold State.arrive State.vblankEvent State.rasterEvent
  dsimp only
  by_cases h1 : vblankPos s.config s.regs = some p <;> by_cases h2 : rasterPos s.config s.regs = some p <;>
    by_cases h3 : iev s.regs <;> by_cases h4 : iep s.regs <;>
    simp [h1, h2, h3, h4, State.setFv, State.setFp, State.fv]

/-- An arrival sets FP exactly at the raster position with IEP set; nothing clears it. -/
theorem State.fp_arrive (s : State) (p : Nat × Nat) :
    (s.arrive p).fp = (s.fp || (decide (rasterPos s.config s.regs = some p) && iep s.regs)) := by
  unfold State.arrive State.vblankEvent State.rasterEvent
  dsimp only
  by_cases h1 : vblankPos s.config s.regs = some p <;> by_cases h2 : rasterPos s.config s.regs = some p <;>
    by_cases h3 : iev s.regs <;> by_cases h4 : iep s.regs <;>
    simp [h1, h2, h3, h4, State.setFv, State.setFp, State.fp]

/-- An arrival touches no latch but P6, and of P6 only bits 0 and 1. -/
theorem State.bit_P_arrive (s : State) (p : Nat × Nat) (j : Fin 8) (k : Nat) (h : j ≠ 6 ∨ 2 ≤ k) :
    bit ((s.arrive p).P j) k = bit (s.P j) k := by
  unfold State.arrive State.vblankEvent State.rasterEvent
  dsimp only
  by_cases hj : j = 6
  · subst hj
    have h0 : ¬0 = k := by omega
    have h1 : ¬1 = k := by omega
    split_ifs <;> simp [State.setFv, State.setFp, h0, h1]
  · split_ifs <;> simp [State.setFv, State.setFp, Ne.symm hj]

theorem State.P_arrive (s : State) (p : Nat × Nat) (j : Fin 8) (hj : j ≠ 6) :
    (s.arrive p).P j = s.P j :=
  BitVec.eq_of_getLsbD_eq fun k _ => State.bit_P_arrive s p j k (.inl hj)

theorem State.dot_valid (s : State) (h : geometryValid s.config s.regs = true) :
    s.dot = (s.moveBeam s.beamNext).arrive s.beamNext := by
  rw [State.dot, if_pos h]

theorem State.dot_invalid (s : State) (h : ¬geometryValid s.config s.regs = true) : s.dot = s := by
  rw [State.dot, if_neg h]

/-- With valid geometry the beam is where `beamNext` says, to the 11 bits of hpos; the 9 bits of vpos always suffice. -/
theorem State.dot_beam (s : State) (h : geometryValid s.config s.regs = true) :
    s.dot.hpos.toNat = s.beamNext.1 % 2048 ∧ s.dot.vpos.toNat = s.beamNext.2 := by
  have h2 := vtl_lt s.regs
  have h3 := s.vpos.isLt
  rw [State.dot_valid _ h]
  simp only [State.arrive_hpos, State.arrive_vpos, State.moveBeam, BitVec.toNat_ofNat]
  have h4 : Dec.vtotal s.regs < 512 := h2
  refine ⟨trivial, ?_⟩
  rw [State.beamNext_snd]
  split_ifs <;> omega

/-- A beam that stays within the totals loses no bit. -/
theorem State.beamNext_fst_lt (s : State) (h : geometryValid s.config s.regs = true) :
    s.beamNext.1 < Dec.htotal s.config s.regs := by
  have := ((geometryValid_iff _ _).mp h).1
  rw [State.beamNext_fst]
  split_ifs <;> omega

theorem vblankPos_iff (c : Config) (r : Regs) (h : geometryValid c r = true) (p : Nat × Nat) :
    vblankPos c r = some p ↔ p.1 = 0 ∧ p.2 = vds r + vdw r ∧ vds r + vdw r < Dec.vtotal r := by
  obtain ⟨a, b⟩ := p
  by_cases h' : vds r + vdw r < Dec.vtotal r
  · simp [vblankPos, h, Dec.vdispStart, Dec.vdispHeight, h', eq_comm]
  · simp [vblankPos, h, Dec.vdispStart, Dec.vdispHeight, h']

theorem rasterPos_iff (c : Config) (r : Regs) (h : geometryValid c r = true) (p : Nat × Nat) :
    rasterPos c r = some p ↔
      p.1 = c.hUnit * ih r ∧ p.2 = Dec.IV r ∧ c.hUnit * ih r < Dec.htotal c r ∧ Dec.IV r < Dec.vtotal r := by
  obtain ⟨a, b⟩ := p
  by_cases h1 : c.hUnit * ih r < Dec.htotal c r <;> by_cases h2 : Dec.IV r < Dec.vtotal r <;>
    simp [rasterPos, h, h1, h2, eq_comm]

end Sys2Proof.Machine
end

