-- ==== Sys2Proof/Laws/PerInstr.lean ====
section
/-! SUPPORT. What every transaction's word has in common with its row of spec/opcode_table.json (R103 of
30_encoding.md), per instruction. -/
namespace Sys2Proof

/-- The word of an instruction agrees with its row's `match` value under the row's mask 0x100F. -/
def Laws.OpcodeRow.Statement (i : Instr) : Prop := encode i &&& 0x100F = matchWord i

theorem Laws.OpcodeRow.outP0 (v : Byte) : Laws.OpcodeRow.Statement (.outP0 v) := by
  unfold Laws.OpcodeRow.Statement; decide +revert
theorem Laws.OpcodeRow.outP1 (v : Byte) : Laws.OpcodeRow.Statement (.outP1 v) := by
  unfold Laws.OpcodeRow.Statement; decide +revert
theorem Laws.OpcodeRow.outP2 (v : Byte) : Laws.OpcodeRow.Statement (.outP2 v) := by
  unfold Laws.OpcodeRow.Statement; decide +revert
theorem Laws.OpcodeRow.outP3 (v : Byte) : Laws.OpcodeRow.Statement (.outP3 v) := by
  unfold Laws.OpcodeRow.Statement; decide +revert
theorem Laws.OpcodeRow.outP4 (v : Byte) : Laws.OpcodeRow.Statement (.outP4 v) := by
  unfold Laws.OpcodeRow.Statement; decide +revert
theorem Laws.OpcodeRow.outP5 (v : Byte) : Laws.OpcodeRow.Statement (.outP5 v) := by
  unfold Laws.OpcodeRow.Statement; decide +revert
theorem Laws.OpcodeRow.outP6 (v : Byte) : Laws.OpcodeRow.Statement (.outP6 v) := by
  unfold Laws.OpcodeRow.Statement; decide +revert
theorem Laws.OpcodeRow.outP7 (v : Byte) : Laws.OpcodeRow.Statement (.outP7 v) := by
  unfold Laws.OpcodeRow.Statement; decide +revert
theorem Laws.OpcodeRow.inP0 : Laws.OpcodeRow.Statement .inP0 := by unfold Laws.OpcodeRow.Statement; decide
theorem Laws.OpcodeRow.inP1 : Laws.OpcodeRow.Statement .inP1 := by unfold Laws.OpcodeRow.Statement; decide
theorem Laws.OpcodeRow.inP2 : Laws.OpcodeRow.Statement .inP2 := by unfold Laws.OpcodeRow.Statement; decide
theorem Laws.OpcodeRow.inP3 : Laws.OpcodeRow.Statement .inP3 := by unfold Laws.OpcodeRow.Statement; decide
theorem Laws.OpcodeRow.inP4 : Laws.OpcodeRow.Statement .inP4 := by unfold Laws.OpcodeRow.Statement; decide
theorem Laws.OpcodeRow.inP5 : Laws.OpcodeRow.Statement .inP5 := by unfold Laws.OpcodeRow.Statement; decide
theorem Laws.OpcodeRow.inP6 : Laws.OpcodeRow.Statement .inP6 := by unfold Laws.OpcodeRow.Statement; decide
theorem Laws.OpcodeRow.inP7 : Laws.OpcodeRow.Statement .inP7 := by unfold Laws.OpcodeRow.Statement; decide
theorem Laws.OpcodeRow.tick : Laws.OpcodeRow.Statement .tick := by unfold Laws.OpcodeRow.Statement; decide
theorem Laws.OpcodeRow.powerOn : Laws.OpcodeRow.Statement .powerOn := by unfold Laws.OpcodeRow.Statement; decide

end Sys2Proof
end

