-- ==== Sys2Proof/Tests/Slice0.lean ====
section
/-! SUPPORT. The model's own tests: expected results are those of spec/95_test_vectors.md and of the rules' examples.
Then, for every statement with hypotheses, a concrete state and operands that meet them. -/
namespace Sys2Proof.Machine

/-- The next state of an outcome, if it is one. -/
def nextOf : Host.Outcome State Fault Refusal → Option State
  | .next t => some t
  | .fault _ => none
  | .refused _ => none

/-- A field of the state after one transaction, or `d` if there is none. -/
def after {α : Type} (i : Instr) (s : State) (f : State → α) (d : α) : α :=
  match nextOf (exec i s) with
  | some t => f t
  | none => d

/-- The state after POWERON with some registers set. -/
def withRegs (l : List (Fin 64 × Byte)) : State := l.foldl (fun s c => s.setR c.1 c.2) State.reset

/-- A state with some table bytes set. -/
def State.withBytes (s : State) (l : List (Loc × Byte)) : State := l.foldl (fun t c => t.memWrite c.1 c.2) s

/-- A state with the beam placed. -/
def State.withBeam (s : State) (h v : Nat) : State := s.moveBeam (h, v)

/-! ## Well-formedness: each check refuses an ill-formed term -/

theorem test_wf_instr : (Instr.outP0 0xFF).wf = true := by decide
theorem test_asm_out_port_refused : (Asm.out 8 0).wf = false := by decide
theorem test_asm_out_byte_refused : (Asm.out 0 256).wf = false := by decide
theorem test_asm_in_port_refused : (Asm.inp 8).wf = false := by decide
theorem test_selr_refused :
    (Pseudo.selr 64 0 0).wf = false ∧ (Pseudo.selr 0 2 0).wf = false ∧ (Pseudo.selr 0 0 2).wf = false := by decide
theorem test_wreg_refused : (Pseudo.wreg 64 0).wf = false ∧ (Pseudo.wreg 0 256).wf = false := by decide
theorem test_wregs_refused : (Pseudo.wregs 64 []).wf = false ∧ (Pseudo.wregs 0 [1, 256]).wf = false := by decide
theorem test_rreg_refused : (Pseudo.rreg 64).wf = false := by decide
theorem test_setpn_refused :
    (Pseudo.setpn 2 0 0).wf = false ∧ (Pseudo.setpn 0 64 0).wf = false ∧ (Pseudo.setpn 0 0 64).wf = false := by decide
theorem test_setpal_refused :
    (Pseudo.setpal 256 0 0 0).wf = false ∧ (Pseudo.setpal 0 256 0 0).wf = false ∧
    (Pseudo.setpal 0 0 256 0).wf = false ∧ (Pseudo.setpal 0 0 0 256).wf = false := by decide
theorem test_ack_refused : (Pseudo.ack 256).wf = false := by decide

/-! ## Decoding: words written out from R100 and R103, bit by bit (H, D, RW, A) -/

theorem test_decode_outP0 : decode 0b0_10101011_0_000 = .ok (.outP0 0xAB) := by decide
theorem test_decode_outP1 : decode 0b0_11111100_0_001 = .ok (.outP1 0xFC) := by decide
theorem test_decode_outP2 : decode 0b0_01000000_0_010 = .ok (.outP2 0x40) := by decide
theorem test_decode_outP3 : decode 0b0_00111111_0_011 = .ok (.outP3 0x3F) := by decide
theorem test_decode_outP4 : decode 0b0_01011010_0_100 = .ok (.outP4 0x5A) := by decide
theorem test_decode_outP5 : decode 0b0_10111111_0_101 = .ok (.outP5 0xBF) := by decide
theorem test_decode_outP6 : decode 0b0_00000010_0_110 = .ok (.outP6 0x02) := by decide
theorem test_decode_outP7 : decode 0b0_11111111_0_111 = .ok (.outP7 0xFF) := by decide
theorem test_decode_inP0 : decode 0b0_11111111_1_000 = .ok .inP0 := by decide
theorem test_decode_inP1 : decode 0b0_00000000_1_001 = .ok .inP1 := by decide
theorem test_decode_inP2 : decode 0b0_00000000_1_010 = .ok .inP2 := by decide
theorem test_decode_inP3 : decode 0b0_00000000_1_011 = .ok .inP3 := by decide
theorem test_decode_inP4 : decode 0b0_00000000_1_100 = .ok .inP4 := by decide
theorem test_decode_inP5 : decode 0b0_00000000_1_101 = .ok .inP5 := by decide
theorem test_decode_inP6 : decode 0b0_00000000_1_110 = .ok .inP6 := by decide
theorem test_decode_inP7 : decode 0b0_00000000_1_111 = .ok .inP7 := by decide
theorem test_decode_tick : decode 0b1_11111111_0_000 = .ok .tick := by decide
theorem test_decode_powerOn : decode 0b1_00000000_0_001 = .ok .powerOn := by decide
/-- V-DEC-8 and V-DEC-9. -/
theorem test_decode_reserved :
    decode 0b1_00000000_0_010 = .error (.reservedAction 2) ∧ decode 0b1_00000000_1_111 = .error (.reservedAction 15) := by
  decide
/-- The words of programs P1 and P4 of 95_test_vectors.md, from their assembly. -/
theorem test_asm_words :
    (Asm.out 5 0xBF).word = 0x0BF5 ∧ (Asm.inp 4).word = 0x000C ∧ (Asm.out 1 0xFC).word = 0x0FC1 ∧
    Asm.tick.word = 0x1000 ∧ Asm.powerOn.word = 0x1001 := by decide
theorem test_asm_text : (Asm.out 5 191).text = "OUT P5, #191" ∧ (Asm.inp 4).text = "IN P4" := by decide
/-- R109's expansions of `SETPN 0, 0, 31` and `WREGS 43, 4, 0` in P2 and P3. -/
theorem test_pseudo :
    (Pseudo.setpn 0 0 31).expand.map Asm.word = [0x0005, 0x0004, 0x0015, 0x01F4] ∧
    (Pseudo.wregs 43 [4, 0]).expand.map Asm.word = [0x0AB5, 0x0044, 0x0004] := by decide
theorem test_table_word : decodeTableWord 16 0x1FF0 = some .tick ∧ decodeTableWord 16 0x1002 = none := by decide

/-! ## One step of each transaction -/

/-- V-PN-2. -/
theorem test_outP0_crosses_to_plane_B :
    after (.outP0 0x55) (withRegs [(0, 63), (1, 31), (2, 1)])
      (fun t => (t.memRead (.pnt 2047), t.R 0, t.R 1, t.phW)) (0, 0, 0, 1) = (0x55, 0x40, 0, 0) := by decide
/-- V-PN-13: the byte and the anomaly are defined, the cursor is not. -/
theorem test_outP0_both_flags :
    after (.outP0 0x77) (withRegs [(0, 5), (1, 5), (2, 3)])
      (fun t => (t.memRead (.pnt 165), t.outEvents)) (0, []) = (0x77, [.anomaly (.pnXYAutoInc 5 5 3)]) := by decide
/-- V-SP-1. -/
theorem test_outP1 :
    after (.outP1 0x07) (withRegs [(3, 255), (2, 4)]) (fun t => (t.memRead (.sat 255), t.R 3, t.P 1)) (0, 1, 0) =
      (0x07, 0, 0x07) := by decide
/-- V-SC-1. -/
theorem test_outP2 :
    after (.outP2 0x11) (withRegs [(4, 255), (2, 8)]) (fun t => (t.memRead (.scr .A 255), t.R 4, t.R 2)) (0, 1, 0) =
      (0x11, 0, 0x28) := by decide
/-- V-PAL-4's commit: the components as they stand. -/
theorem test_outP3_commits :
    after (.outP3 9) (((withRegs [(5, 255), (2, 0x10)]).withBytes [(.cram 255 0, 7), (.cram 255 1, 8)]).palStepWrite.palStepWrite)
      (fun t => (t.outEvents, t.R 5, t.subW)) ([], 1, 1) = ([.paletteCommit 255 7 8 9], 0, 0) := by decide
/-- V-REG-2. -/
theorem test_outP4_wraps :
    after (.outP4 0x01) (State.reset.setP 5 0xBF) (fun t => (t.R 63, t.P 5, t.P 4)) (0, 0, 0) = (0x01, 0x80, 0x01) := by
  decide
/-- V-REG-6. -/
theorem test_outP4_restarts_triplet :
    after (.outP4 0x20) ((State.reset.setP 5 0x05).palStepWrite.palStepWrite.palStepRead)
      (fun t => (t.R 5, t.subR, t.subW, t.outEvents)) (0, 1, 1, []) = (0x20, 0, 0, []) := by decide
/-- R120's example. -/
theorem test_outP5 :
    after (.outP5 0x87) State.reset (fun t => (t.addr, t.ari, t.awi)) (0, true, false) = (7, false, true) := by decide
/-- V-ST-1. -/
theorem test_outP6_clears : after (.outP6 0x01) (State.reset.setP 6 0x03) (fun t => t.P 6) 0 = 0x02 := by decide
/-- V-ST-2. -/
theorem test_outP6_ignores : after (.outP6 0xFC) (State.reset.setP 6 0x03) (fun t => t.P 6) 0 = 0x03 := by decide
/-- V-SYS-1. -/
theorem test_outP7_stores : after (.outP7 0xFE) (withRegs [(7, 0x3F)]) (fun t => (t.P 7, t.R 7)) (0, 0) = (0xFE, 0x3F) := by
  decide
/-- V-SYS-2. -/
theorem test_outP7_resets :
    after (.outP7 0xFF) ((withRegs [(7, 0x3F), (40, 7)]).withBytes [(.pnt 0, 1)])
      (fun t => (t.R 7, t.R 40, t.memRead (.pnt 0), t.P 7)) (1, 0, 1, 1) = (0, 7, 0, 0) := by decide
/-- V-PN-9. -/
theorem test_inP0_one_byte :
    after .inP0 ((withRegs [(0, 5), (1, 5), (2, 1)]).withBytes [(.pnt 165, 0x77)])
      (fun t => (t.outByte, t.R 0, t.R 1)) (none, 0, 0) = (some 0x77, 5, 6) := by decide
/-- V-PN-10, second read. -/
theorem test_inP0_high_byte :
    after .inP0 ((withRegs [(7, 2), (2, 1)]).withBytes [(.pnt 0, 0x34), (.pnt 1, 0x12)]).pnStepRead
      (fun t => (t.outByte, t.R 1, t.phR)) (none, 0, 1) = (some 0x12, 1, 0) := by decide
/-- V-SP-3. -/
theorem test_inP1 :
    after .inP1 ((withRegs [(3, 8), (2, 4)]).withBytes [(.sat 8, 0x20)]) (fun t => (t.outByte, t.R 3)) (none, 0) =
      (some 0x20, 9) := by decide
/-- R140's example. -/
theorem test_inP2 :
    after .inP2 ((withRegs [(4, 255), (2, 8)]).withBytes [(.scr .A 255, 0x11)]) (fun t => (t.outByte, t.R 4, t.R 2))
      (none, 1, 0) = (some 0x11, 0, 0x28) := by decide
/-- V-PAL-6, third read. -/
theorem test_inP3 :
    after .inP3 ((withRegs [(5, 3), (2, 0x10)]).withBytes [(.cram 3 2, 0x30)]).palStepRead.palStepRead
      (fun t => (t.outByte, t.R 5, t.subR)) (none, 0, 1) = (some 0x30, 4, 0) := by decide
/-- V-REG-3. -/
theorem test_inP4 :
    after .inP4 ((withRegs [(63, 0x5A)]).setP 5 0x7F) (fun t => (t.outByte, t.P 5)) (none, 0) = (some 0x5A, 0x40) := by
  decide
/-- V-REG-8. -/
theorem test_inP5 : after .inP5 (State.reset.setP 5 0xC0) (fun t => (t.outByte, t.P 5)) (none, 0) = (some 0xC0, 0xC0) := by
  decide
/-- V-ST-4. -/
theorem test_inP6 :
    after .inP6 ((withRegs [(14, 1)]).setP 6 1) (fun t => (t.outByte, t.irqV)) (none, false) = (some 1, true) := by decide
/-- R163's example. -/
theorem test_inP7 : after .inP7 (State.reset.setP 7 0x80) (fun t => t.outByte) none = some 0x80 := by decide
/-- V-CRT-6: both events in one step. -/
theorem test_tick_both_events :
    after .tick ((withRegs [(39, 1), (43, 4), (45, 2), (16, 2), (14, 3)]).withBeam 7 1)
      (fun t => (t.hpos, t.vpos, t.P 6, t.irqV, t.irqR)) (1, 0, 0, false, false) = (0, 2, 3, true, true) := by decide
/-- V-CRT-4: a beam left beyond the total. -/
theorem test_tick_beyond_total :
    after .tick ((withRegs [(39, 1), (43, 4)]).withBeam 20 1) (fun t => (t.hpos, t.vpos)) (1, 0) = (0, 2) := by decide
/-- V-RST-2. -/
theorem test_powerOn :
    after .powerOn (((withRegs [(39, 53), (50, 0x77)]).withBytes [(.cram 9 1, 2)]).withBeam 100 5)
      (fun t => (t.R 39, t.R 50, t.memRead (.cram 9 1), t.hpos, t.vpos)) (1, 1, 1, 1, 1) = (0, 0, 0, 0, 0) := by decide

/-- R224 and R58 at H_UNIT = 16: HTL 1 is a line of 16 dots, so dot 7 is followed by dot 8, and dot 15 by dot 0. -/
theorem test_tick_other_unit :
    let s := { withRegs [(39, 1), (43, 4)] with config := { hUnit := 16 } }
    after .tick (s.withBeam 7 1) (fun t => (t.hpos, t.vpos)) (0, 0) = (8, 1) ∧
    after .tick (s.withBeam 15 1) (fun t => (t.hpos, t.vpos)) (1, 0) = (0, 2) := by decide

/-! ## Display functions -/

/-- R183, first example. -/
theorem test_tile_base :
    ((withRegs [(7, 2), (18, 0x31)]).withBytes [(.pnt 582, 0x7A), (.pnt 583, 0x52)]).tileInfo .A 9 3 =
      ⟨0x127A, 5, false, false, []⟩ := by decide
/-- R183, second example. -/
theorem test_tile_flip :
    ((withRegs [(7, 0xA), (18, 0x31)]).withBytes [(.pnt 582, 0x7A), (.pnt 583, 0xC3)]).tileInfo .A 9 3 =
      ⟨0x137A, 12, true, true, []⟩ := by decide
/-- R183, third example. -/
theorem test_tile_page :
    (State.reset.withBytes [(.pnt 0, 0x10), (.scr .A 0x81, 1), (.scr .A 0xC1, 2)]).tileInfo .A 0 0 =
      ⟨0x210, 0, false, false, []⟩ := by decide
/-- V-TI-7. -/
theorem test_tile_clamp :
    ((withRegs [(7, 6), (17, 0x0F)]).withBytes [(.pnt 0, 0xFF), (.pnt 1, 0x0F), (.scr .A 0xC0, 0xFF)]).tileInfo .A 0 0 = ⟨0, 0, false, false, [.tileCodeRange .A 0 0 3]⟩ := by decide
/-- R214 with V-SC-2's scroll: plane B scrolled by 0x140 dots on a 256-dot page. -/
theorem test_blit :
    ((withRegs [(7, 2)]).withBytes [(.scr .B 0x80, 0x40), (.scr .B 0x81, 1)]).blitMap .B 10 20 = ((74, 20), []) := by
  decide
/-- P4: the last two draws are entry 0 and its wrapped copy. -/
theorem test_sprite_wrap :
    (((withRegs [(7, 1)]).withBytes [(.sat 0, 5), (.sat 1, 0xFC), (.sat 2, 0x20), (.sat 3, 5)]).sprDraws 0) = [⟨0, 5, 0, false, false, 16, 508, 32⟩, ⟨0, 5, 0, false, false, 16, -4, 32⟩] := by decide
/-- V-SPR-4. -/
theorem test_sprite_colour_fetch :
    let s := (withRegs [(6, 0x2D), (11, 3)]).withBytes [(.sat 0, 5), (.sat 3, 4)]
    (s.sprCode 0, s.sprColour 0) = (0x0B05, 12) := by decide
/-- V-SPR-2: 64 draws. -/
theorem test_sprite_count : ((withRegs [(7, 1)]).spriteList).length = 64 := by decide
/-- R8 and R197 at SAT_BYTES = 8: two entries, slot 0 last. -/
theorem test_sprite_small_table :
    (State.spriteList { withRegs [(7, 1)] with config := { satBytes := 8 } }).map Draw.n = [1, 0] := by decide
/-- R216, rotation by 90 degrees. -/
theorem test_roz_rotate :
    rozMap Config.default (withRegs [(7, 2), (30, 0x80), (31, 0xFF), (37, 0x80)]).regs 3 5 = (251, 3) := by decide
/-- R216, origin -1.0. -/
theorem test_roz_origin :
    rozMap Config.default (withRegs [(7, 2), (25, 0x80), (26, 0xFF), (27, 0xFF), (28, 0x80), (35, 0x80)]).regs 0 0 =
      (255, 0) := by decide
/-- V-CRT-10. -/
theorem test_geometry :
    let r := (withRegs [(39, 53), (40, 4), (41, 40), (43, 6), (44, 16), (45, 0xE0), (46, 1)]).regs
    let g := geometry Config.default r
    (g.htotal, g.vtotal, g.x0, g.x1, g.y0, g.y1, g.framePeriod) = (424, 262, 32, 351, 16, 239, 111088) ∧
      vblankPos Config.default r = some (0, 240) := by decide

/-! ## The step -/

/-- V-REG-2 through the step: `OUT P5, #0xBF` as the first word after reset, then `OUT P4, #0x01` (0x0014). -/
theorem test_step_runs_the_word :
    ((nextOf (step (State.reset.withFetchWord 16 0x0BF5))).map fun t => (t.P 5, t.input)) = some (0xBF, []) ∧
    ((nextOf (step ((State.reset.setP 5 0xBF).withFetchWord 16 0x0014))).map fun t => (t.R 63, t.P 5)) =
      some (1, 0x80) := by decide

/-! ## Witnesses: the hypotheses of each statement can be met, each clause at a boundary value -/

theorem witness_ReservedActionsAreRefused :
    ∃ (w w' : TWord) (s s' : State), decode w = .error (.reservedAction 2) ∧ s.input = w :: [] ∧
      decode w' = .error (.reservedAction 15) ∧ s'.input = w' :: [] :=
  ⟨0x1002, 0x100F, State.reset.withFetchWord 16 0x1002, State.reset.withFetchWord 16 0x100F, by decide⟩
theorem witness_StepRunsTheDecodedWord :
    ∃ (s : State) (w : TWord) (i : Instr), s.input = w :: [] ∧ decode w = .ok i ∧ State.reset.input = [] :=
  ⟨State.reset.withFetchWord 16 0x0FF7, 0x0FF7, .outP7 0xFF, by decide⟩
theorem witness_AssemblerLinesEncode : (Asm.out 7 255).wf = true ∧ (Asm.inp 7).wf = true ∧ (Asm.out 7 256).wf = false := by
  decide
theorem witness_PseudoExpansionsAreWellFormed :
    [Pseudo.selr 63 1 1, .wreg 63 255, .wregs 63 [0, 255], .rreg 63, .setpn 1 63 63, .setpal 255 255 255 255, .ack 255,
      .reset, .tick 3].all (fun p => p.wf && !p.expand.isEmpty) = true := by decide
theorem witness_SystemControlWriteResetsOrStores :
    bit 0x01 0 = true ∧ bit 0xFF 0 = true ∧ bit 0xFE 0 = false ∧ Cleared 0 ∧ Cleared 38 ∧ ¬Cleared 39 ∧ ¬Cleared 46 ∧
      Cleared 47 ∧ Cleared 49 ∧ ¬Cleared 50 ∧ ¬Cleared 63 := by decide
theorem witness_ResetOperationIsIdempotent : bit 0x01 0 = true ∧ bit 0xFF 0 = true := by decide
theorem witness_RegistersReadBackAfterReset :
    bit 0x01 0 = true ∧ Cleared (38 : BitVec 6).toFin ∧ ¬Cleared (39 : BitVec 6).toFin ∧ ¬Cleared (46 : BitVec 6).toFin ∧
      Cleared (47 : BitVec 6).toFin ∧ Cleared (49 : BitVec 6).toFin ∧ ¬Cleared (50 : BitVec 6).toFin := by decide
theorem witness_LatchReadsHaveNoSideEffect :
    ((State.reset.setP 6 3).setP 7 0xFE).latchesOk = true ∧ (2 : Nat) ≤ 2 := by decide
theorem witness_RegisterDataWriteEffect :
    ∃ s0 s1 s2 s5 : State, s0.addr = 0 ∧ s1.addr = 1 ∧ s5.addr = 5 ∧ (s2.addr ≠ 0 ∧ s2.addr ≠ 1 ∧ s2.addr ≠ 5) ∧
      s2.addr = 63 ∧ s2.awi = true :=
  ⟨State.reset, State.reset.setP 5 1, State.reset.setP 5 0xBF, State.reset.setP 5 5, by decide⟩
theorem witness_PatternNameAddressIsABijection :
    let r := State.reset.regs
    Dec.twoPlane r = true ∧ 63 < Dec.H r ∧ 31 < Dec.W r ∧ 0 < Dec.pnBytes r ∧
      pnAddr r .B 63 31 0 = pnAddr r .B 63 31 0 ∧ 4095 < 4096 := by decide
theorem witness_PatternNameCursorAdvances :
    ∃ b x y n : State, (pxi b.regs = true ∧ pyi b.regs = true) ∧
      (pxi x.regs = true ∧ pyi x.regs = false ∧ (pnx x.regs).toNat + 1 = Dec.W x.regs ∧
        (pny x.regs).toNat + 1 = Dec.H x.regs) ∧
      (pxi y.regs = false ∧ pyi y.regs = true ∧ (pny y.regs).toNat + 2 = Dec.H y.regs) ∧
      (pxi n.regs = false ∧ pyi n.regs = false) :=
  ⟨withRegs [(2, 3)], withRegs [(2, 1), (0, 63), (1, 31)], withRegs [(2, 2), (0, 62)], State.reset, by decide⟩
theorem witness_PatternNameWriteEffect :
    ∃ s t u : State, (s.phW = 0 ∧ Dec.pnBytes s.regs = 2) ∧ (t.phW = 1 ∧ Dec.pnBytes t.regs = 2) ∧
      (u.phW = 0 ∧ Dec.pnBytes u.regs = 1) :=
  ⟨withRegs [(7, 2)], (withRegs [(7, 2)]).pnStepWrite, State.reset, by decide⟩
theorem witness_PatternNameReadEffect :
    ∃ s t u : State, (s.phR = 0 ∧ Dec.pnBytes s.regs = 2) ∧ (t.phR = 1 ∧ Dec.pnBytes t.regs = 2) ∧
      (u.phR = 0 ∧ Dec.pnBytes u.regs = 1) :=
  ⟨withRegs [(7, 6)], (withRegs [(7, 6)]).pnStepRead, State.reset, by decide⟩
theorem witness_PatternNameRoundTrip :
    Dec.pnBytes State.reset.regs = 1 ∧ Dec.pnBytes (withRegs [(7, 6)]).regs = 2 := by decide
theorem witness_ScrollPortEffect :
    ∃ s t u : State, (bit (s.R 2) 3 = true ∧ (s.R 4).toNat + 1 < 256) ∧
      (bit (t.R 2) 3 = true ∧ (t.R 4).toNat + 1 = 256) ∧ bit (u.R 2) 3 = false :=
  ⟨withRegs [(2, 8), (4, 254)], withRegs [(2, 8), (4, 255)], State.reset, by decide⟩
theorem witness_ScrollReadsStreamBothPlanes : sci (withRegs [(2, 0x28), (4, 255)]).regs = true := by decide
theorem witness_PaletteWriteEffect :
    State.reset.palStepWrite.palStepWrite.subW = 2 ∧ State.reset.palStepWrite.subW ≠ 2 := by decide
theorem witness_PaletteReadEffect :
    State.reset.palStepRead.palStepRead.subR = 2 ∧ State.reset.palStepRead.subR ≠ 2 := by decide
theorem witness_PaletteTripletCommitsOnce :
    ∃ s : State, s.subW = 0 ∧ cpi s.regs = true ∧ s.R 5 = 255 ∧ (s.R 5).toNat < s.config.palN := ⟨withRegs [(2, 0x10), (5, 255)], by decide⟩
theorem witness_StatusClearEffect : bit 0x01 0 = true ∧ bit 0x02 1 = true ∧ (2 : Nat) ≤ 2 := by decide
theorem witness_EnableBitsGateTheLines : (State.reset.setP 5 14).addr = 14 := by decide
theorem witness_TickMovesTheBeamAndRaisesFlags :
    ∃ s t : State, (8 * htl s.regs = 0 ∨ vtl s.regs = 0) ∧ 8 * htl t.regs ≠ 0 ∧ vtl t.regs ≠ 0 ∧
      t.hpos.toNat + 1 = 8 * htl t.regs :=
  ⟨State.reset, (withRegs [(39, 1), (43, 1)]).withBeam 7 0, by decide⟩
theorem witness_OnlyTheseTransactionsChangeAFlag :
    ∃ s u : State, (s.fv = false ∧ s.fp = false ∧ after .tick s State.fv false = true ∧
      after .tick s State.fp false = true) ∧
      (u.fv = true ∧ u.fp = true ∧ after (.outP6 3) u State.fv true = false ∧ after (.outP6 3) u State.fp true = false) :=
  ⟨(withRegs [(39, 1), (43, 4), (45, 2), (16, 2), (14, 3)]).withBeam 7 1, State.reset.setP 6 3, by decide⟩
theorem witness_OnlyTickAndPowerOnMoveTheBeam : Instr.inP0 ≠ .tick ∧ Instr.inP0 ≠ .powerOn := by decide
theorem witness_BeamVisitsTheFrameInOrder :
    let s := (withRegs [(39, 255), (46, 1), (43, 255)]).withBeam 2039 510
    s.beamInside ∧ Dec.htotal s.config s.regs ≤ 2048 := by decide
theorem witness_OutOfRangeRasterNeverFires :
    ∃ s t : State, 8 * htl s.regs ≤ 8 * ih s.regs ∧ vtl t.regs ≤ Dec.IV t.regs ∧ ¬8 * htl t.regs ≤ 8 * ih t.regs :=
  ⟨withRegs [(39, 1), (43, 4), (15, 1)], withRegs [(39, 1), (43, 4), (16, 4)], by decide⟩
theorem witness_EnabledEventsFireWithinAFrame :
    ∃ s : State, s.beamInside ∧ Dec.htotal s.config s.regs ≤ 2048 ∧ rasterPos Config.default s.regs = some (0, 3) ∧ iep s.regs = true ∧
      s.fp = false ∧ vblankPos Config.default s.regs = some (0, 3) ∧ iev s.regs = true ∧ s.fv = false :=
  ⟨(withRegs [(39, 1), (43, 4), (45, 3), (16, 3), (14, 3)]).withBeam 0 3, by decide⟩
theorem witness_GeometryIsAFunctionOfTheCrtcRegisters :
    ∃ r r' : Regs, (∀ i : Fin 64, 39 ≤ i.val → i.val ≤ 46 → reg r i = reg r' i) ∧ reg r 38 ≠ reg r' 38 ∧
      reg r 47 ≠ reg r' 47 := ⟨State.reset.regs, (withRegs [(38, 1), (47, 1)]).regs, by decide⟩
theorem witness_StepKeepsTheInvariant :
    ∃ s : State, s.Inv ∧ (nextOf (step s)).isSome = true ∧ s.pnt ≠ [] :=
  ⟨(State.reset.withBytes [(.pnt 4095, 1), (.cram 255 2, 1)]).withFetchWord 16 0x0AB0, by decide⟩
theorem witness_ResetMeetsTheInvariant : (State.reset.withBytes [(.sat 255, 1), (.scr .B 255, 1)]).Inv := by decide
theorem witness_CanonicalTablesAreExtensional :
    let s := State.reset.withBytes [(.pnt 1, 5), (.pnt 0, 6)]
    let t := State.reset.withBytes [(.pnt 0, 6), (.pnt 2, 7), (.pnt 1, 5), (.pnt 2, 0)]
    s.Inv ∧ t.Inv ∧ s.config = t.config ∧ s.pnt = t.pnt ∧ s.pnt ≠ [] := by decide
theorem witness_OnlyTheseTransactionsChangeARegister :
    after (.outP4 7) (State.reset.setP 5 63) (fun t => t.R 63) 0 ≠ State.reset.R 63 := by decide
theorem witness_OnlyTheseTransactionsChangeATable :
    after (.outP3 7) (withRegs [(5, 255)]) (fun t => t.memRead (.cram 255 0)) 0 ≠ State.reset.memRead (.cram 255 0) := by
  decide
theorem witness_SnapshotDeterminesBehaviour :
    let s := State.reset
    let s' := (State.reset.reply 5).withFetchWord 16 0
    s.save = s'.save ∧ s.draws = s'.draws ∧ s.config = s'.config ∧ s.outByte ≠ s'.outByte ∧ s.input ≠ s'.input := by decide
theorem witness_PageGeometryTable :
    md State.reset.regs = 0 ∧ md (withRegs [(7, 2)]).regs = 1 ∧ md (withRegs [(7, 4)]).regs = 2 ∧
      md (withRegs [(7, 6), (8, 1)]).regs = 3 ∧ pgs (withRegs [(7, 6), (8, 1)]).regs = true := by decide
theorem witness_TileCodesStayInRange :
    ∃ (s t : State), 0 < tileLimit s.config s.regs ∧ md s.regs ≥ 2 ∧
      s.pagedCode .A 0 0 < tileLimit s.config s.regs ∧
      0 < tileLimit t.config t.regs ∧ tileLimit t.config t.regs = t.pagedCode .A 0 0 :=
  ⟨withRegs [(7, 4)], (withRegs [(7, 4), (9, 1), (17, 4)]), by decide⟩
theorem witness_ResolverReadsWhatThePortWrote :
    ∃ s t u : State, (Dec.pnBytes s.regs = 2 ∧ Dec.twoPlane s.regs = true ∧ tcfe s.regs = false ∧ md s.regs ≠ 3) ∧
      (Dec.pnBytes t.regs = 2 ∧ ((0 : BitVec 1) = 1 → Dec.twoPlane t.regs = true) ∧ md t.regs = 3) ∧
      (Dec.pnBytes u.regs = 1 ∧ tcfe u.regs = false) :=
  ⟨withRegs [(7, 0xA)], withRegs [(7, 6)], State.reset, by decide⟩
theorem witness_ScrollDivisionFallsBack :
    sdv State.reset.regs = 0 ∧ sdv (withRegs [(8, 2)]).regs = 1 ∧ 2 ≤ sdv (withRegs [(8, 4)]).regs ∧
      2 ≤ sdv (withRegs [(8, 0xE)]).regs := by decide
theorem witness_SpriteListOrderAndBounds :
    ∃ s t u : State, dspe s.regs = false ∧ spd t.regs = true ∧ (dspe u.regs = true ∧ spd u.regs = false) ∧
      u.config.satBytes = Config.default.satBytes ∧ u.config.numSpr = Config.default.numSpr ∧
      u.spriteList.head?.map Draw.n = some 63 :=
  ⟨State.reset, withRegs [(7, 0x11)], withRegs [(7, 1)], by decide⟩
theorem witness_SpriteCopiesCoverTheTorus :
    511 < 512 ∧ 496 ≤ 512 - sprDots 1 ∧ 512 - sprDots 1 < 497 ∧ 448 ≤ 512 - sprDots 3 ∧ 512 - sprDots 3 < 449 ∧
      15 < sprDots 1 := by decide
theorem witness_SpriteListDependsOnlyOnItsInputs :
    let s := State.reset
    let s' := (withRegs [(5, 1), (8, 1), (10, 1), (12, 1)]).withBytes [(.pnt 0, 1)]
    s.config = s'.config ∧ s.sat = s'.sat ∧ (∀ i ∈ [(6 : Fin 64), 7, 9, 11], s.R i = s'.R i) ∧ s.regs ≠ s'.regs := by decide
theorem witness_RozMapWrapsOnThePage :
    ∃ r r' : Regs, (axRaw r = 0 ∧ ayRaw r = 0 ∧ dxRaw r = 0x80 ∧ dyRaw r = 0x80 ∧ dxyRaw r = 0 ∧ dyxRaw r = 0) ∧
      (∀ i : Fin 64, 25 ≤ i.val → i.val ≤ 38 → reg r' i = 0) ∧ reg r' 24 ≠ 0 ∧ reg r' 39 ≠ 0 :=
  ⟨(withRegs [(28, 0x80), (35, 0x80)]).regs, (withRegs [(24, 1), (39, 1)]).regs, by decide⟩
theorem witness_RozParametersDecodeOnEachByte :
    ∀ k : Fin 14, (State.reset.setP 5 (BitVec.ofNat 8 (25 + k.val))).addr = BitVec.ofNat 6 (25 + k.val) := by decide

theorem witness_PatternNameAddressFormula :
    (1 : Nat) < 2 ∧ md State.reset.regs < 2 ∧ ¬md (withRegs [(7, 4)]).regs < 2 := by decide
theorem witness_GeometryAndEventPositions :
    let r := (withRegs [(39, 1), (43, 4), (45, 3), (16, 3)]).regs
    (geometry Config.default r).valid = true ∧ vblankPos Config.default r = some (0, 3) ∧
      rasterPos Config.default r = some (0, 3) ∧ vblankPos Config.default (withRegs [(39, 1), (43, 4), (45, 4)]).regs = none ∧
      rasterPos Config.default (withRegs [(39, 1), (43, 4), (15, 1)]).regs = none := by decide
theorem witness_ResolverFollowsItsRules :
    md (withRegs [(7, 2)]).regs < 2 ∧ (Plane.A = .B → md (withRegs [(7, 6)]).regs < 2) := by decide
theorem witness_SpriteEntryDecode :
    ∃ s : State, 63 < 64 ∧ 63 < s.config.satBytes / 4 ∧ dspe s.regs = true ∧ spd s.regs = false ∧ (s.sprDraws 63).length = 1 :=
  ⟨withRegs [(7, 1)], by decide⟩
theorem witness_SampleMapFollowsItsRules :
    roze (withRegs [(7, 0x20)]).regs = true ∧ roze State.reset.regs = false := by decide

theorem witness_ParametersStayAsBuilt :
    (nextOf (exec .powerOn { State.reset with config := { hUnit := 16 } })).isSome = true := by decide
theorem witness_AbsentTableBytesStoreNothing :
    ∃ s : State, s.config.satBytes ≤ (s.R 3).toNat ∧ s.config.palN ≤ (s.R 5).toNat :=
  ⟨{ withRegs [(3, 128), (5, 16)] with config := { satBytes := 128, palN := 16 } }, by decide⟩

end Sys2Proof.Machine
end

/-! ## Encoding: the fields of a word and the decoder (R100 to R108 of 30_encoding.md) -/

namespace Sys2Proof

/-- The bits of a word, field by field (R100). -/
theorem getLsbD_mkWord (h : BitVec 1) (d : Byte) (rw : BitVec 1) (a : BitVec 3) (i : Nat) :
    (mkWord h d rw a).getLsbD i =
      if i < 3 then a.getLsbD i
      else if i - 3 < 1 then rw.getLsbD (i - 3)
      else if i - 3 - 1 < 8 then d.getLsbD (i - 3 - 1)
      else h.getLsbD (i - 3 - 1 - 8) := by
  have hword : (mkWord h d rw a).getLsbD i = (h ++ d ++ rw ++ a : BitVec (1 + 8 + 1 + 3)).getLsbD i := rfl
  rw [hword]
  simp only [BitVec.getLsbD_append]

@[simp] theorem wordPort_mkWord (h : BitVec 1) (d : Byte) (rw : BitVec 1) (a : BitVec 3) :
    wordPort (mkWord h d rw a) = a := by
  apply BitVec.eq_of_getLsbD_eq
  intro i hi
  simp [wordPort, getLsbD_mkWord, hi]

@[simp] theorem wordData_mkWord (h : BitVec 1) (d : Byte) (rw : BitVec 1) (a : BitVec 3) :
    wordData (mkWord h d rw a) = d := by
  apply BitVec.eq_of_getLsbD_eq
  intro i hi
  have hport : ¬4 + i < 3 := by omega
  have hrw : ¬4 + i - 3 < 1 := by omega
  have hdata : 4 + i - 3 - 1 = i := by omega
  rw [wordData, BitVec.getLsbD_extractLsb', getLsbD_mkWord, if_neg hport, if_neg hrw, hdata]
  simp [hi]

theorem decode_mkWord_write (d : Byte) (a : BitVec 3) : decode (mkWord 0 d 0 a) = .ok (decodeWrite a.toFin d) := by
  have haction : (mkWord 0 d 0 a).getLsbD 12 = false := getLsbD_mkWord ..
  have hread : (mkWord 0 d 0 a).getLsbD 3 = false := getLsbD_mkWord ..
  rw [decode, haction, hread, wordPort_mkWord, wordData_mkWord]
  rfl

theorem decode_mkWord_read (d : Byte) (a : BitVec 3) : decode (mkWord 0 d 1 a) = .ok (decodeRead a.toFin) := by
  have haction : (mkWord 0 d 1 a).getLsbD 12 = false := getLsbD_mkWord ..
  have hread : (mkWord 0 d 1 a).getLsbD 3 = true := getLsbD_mkWord ..
  rw [decode, haction, hread, wordPort_mkWord]
  rfl

/-- The decoder gives back every transaction from its own word (R104, R108). -/
theorem decode_encode (i : Instr) : decode (encode i) = .ok i := by
  cases i with
  | outP0 v | outP1 v | outP2 v | outP3 v | outP4 v | outP5 v | outP6 v | outP7 v => exact decode_mkWord_write v _
  | inP0 | inP1 | inP2 | inP3 | inP4 | inP5 | inP6 | inP7 => exact decode_mkWord_read 0 _
  | tick | powerOn => rfl

/-- A table row's 16 bits hold the whole transaction word. -/
@[simp] theorem tableWord_toNat (w : TWord) : tableWord 16 w.toNat = w := by
  apply BitVec.eq_of_toNat_eq
  have hw := w.isLt
  simp only [tableWord, BitVec.toNat_ofNat]
  omega

end Sys2Proof

namespace Sys2Proof.Machine

/-! ## One step (R6 of 00_scope.md, R254 of 60_exceptions.md) -/

theorem step_of_input_nil {s : State} (h : s.input = []) : step s = .next s := by
  simp [step, State.fetch, h]

theorem step_of_decode_ok {s : State} {w : TWord} {rest : List TWord} {i : Instr} (hin : s.input = w :: rest)
    (hw : decode w = .ok i) : step s = exec i { s with input := rest } := by
  simp [step, State.fetch, hin, hw]

theorem step_of_decode_error {s : State} {w : TWord} {rest : List TWord} {code : BitVec 4} (hin : s.input = w :: rest)
    (hw : decode w = .error (.reservedAction code)) : step s = .refused (.reservedAction code) := by
  simp [step, State.fetch, hin, hw]

/-- All that a step with a next state can be: nothing pending and nothing done, or the oldest word's transaction. -/
theorem step_next_cases {s t : State} (h : step s = .next t) :
    (s.input = [] ∧ t = s) ∨
    ∃ w rest i, s.input = w :: rest ∧ decode w = .ok i ∧ exec i { s with input := rest } = .next t := by
  rcases hin : s.input with _ | ⟨w, rest⟩
  · rw [step_of_input_nil hin] at h
    exact .inl ⟨rfl, (Host.Outcome.next.inj h).symm⟩
  · rcases hw : decode w with ⟨code⟩ | i
    · rw [step_of_decode_error hin hw] at h
      cases h
    · rw [step_of_decode_ok hin hw] at h
      exact .inr ⟨w, rest, i, rfl, hw, h⟩

/-- Placing a transaction's own word makes the next step run that transaction on the state as it was. -/
theorem step_withFetchWord_encode (i : Instr) (s : State) :
    step (s.withFetchWord 16 (encode i).toNat) = exec i s := by
  have hin : (s.withFetchWord 16 (encode i).toNat).input = encode i :: s.input := by simp [State.withFetchWord]
  exact step_of_decode_ok hin (decode_encode i)

/-- Settles O4, by the step's equations and the decoder's round trip. -/
theorem stepRunsTheDecodedWord : Obligations.StepRunsTheDecodedWord :=
  ⟨fun _ _ _ _ hin hw => step_of_decode_ok hin hw, step_withFetchWord_encode, fun _ hin => step_of_input_nil hin⟩

/-! ## The parameters (R8 of 00_scope.md) -/

/-- No transaction changes the parameters: each is made of shared operations that keep them. -/
theorem exec_config {i : Instr} {s t : State} (h : exec i s = .next t) : t.config = s.config := by
  cases i with
  | outP7 v =>
    obtain rfl := Host.Outcome.next.inj h
    split_ifs <;> simp
  | _ =>
    obtain rfl := Host.Outcome.next.inj h
    simp

/-- No step changes the parameters: it does nothing or runs one transaction. -/
theorem step_config {s t : State} (h : step s = .next t) : t.config = s.config := by
  obtain ⟨-, rfl⟩ | ⟨w, rest, i, -, -, hexec⟩ := step_next_cases h
  · rfl
  · exact (exec_config hexec :)

/-- Settles O59, from the frame of every transaction and the cases of a step. -/
theorem parametersStayAsBuilt : Obligations.ParametersStayAsBuilt :=
  ⟨fun _ _ _ => exec_config, fun _ _ => step_config, rfl, Loc.present_default⟩

/-! ## Accesses beyond a smaller table (R8 of 00_scope.md; log 10) -/

theorem sap_eq_R (s : State) : sap s.regs = s.R 3 := rfl
theorem cpp_eq_R (s : State) : cpp s.regs = s.R 5 := rfl

/-- The sprite port's write stores nothing where SAT ends before the cursor. -/
theorem execOutP1_absent (v : Byte) (s : State) (h : s.config.satBytes ≤ (s.R 3).toNat) :
    ∃ t, exec (.outP1 v) s = .next t ∧ SameTables [] s t := by
  refine ⟨_, rfl, fun l _ => ?_⟩
  have habs : (Loc.sat (s.R 3)).present s.config = false := by simpa using h
  simp [-Loc.present_sat, sap_eq_R, habs]

/-- The sprite port's read answers the free value of its cursor there. -/
theorem execInP1_absent (s : State) (h : s.config.satBytes ≤ (s.R 3).toNat) :
    ∃ t, exec .inP1 s = .next t ∧ t.outByte = some (Config.freeSatByte (s.R 3)) := by
  refine ⟨_, rfl, ?_⟩
  have habs := State.memRead_sat_absent s (s.R 3) h
  simpa [sap_eq_R] using habs

/-- The palette port's write stores nothing where CRAM ends before the cursor. -/
theorem execOutP3_absent (v : Byte) (s : State) (h : s.config.palN ≤ (s.R 5).toNat) :
    ∃ t, exec (.outP3 v) s = .next t ∧ SameTables [] s t := by
  refine ⟨_, rfl, fun l _ => ?_⟩
  have habs : (Loc.cram (s.R 5) s.subW).present s.config = false := by simpa using h
  simp [-Loc.present_cram, cpp_eq_R, habs]

/-- The palette port's read answers the free value of its entry and component there. -/
theorem execInP3_absent (s : State) (h : s.config.palN ≤ (s.R 5).toNat) :
    ∃ t, exec .inP3 s = .next t ∧ t.outByte = some (Config.freeCramByte (s.R 5) s.subR) := by
  refine ⟨_, rfl, ?_⟩
  have habs := State.memRead_cram_absent s (s.R 5) s.subR h
  simpa [cpp_eq_R] using habs

/-- Settles O60, one access of ports 1 and 3 at a time. -/
theorem absentTableBytesStoreNothing : Obligations.AbsentTableBytesStoreNothing := fun v s =>
  ⟨fun hsat => ⟨execOutP1_absent v s hsat, execInP1_absent s hsat⟩,
    fun hpal => ⟨execOutP3_absent v s hpal, execInP3_absent s hpal⟩⟩

end Sys2Proof.Machine

namespace Sys2Proof.Machine

/-! ## The page geometry (R61 of 10_state.md) and the base nibbles (R50, R51) -/

theorem md_lt (r : Regs) : md r < 4 := bits_lt (reg r 7) 1 2

theorem Dec.W_eq_two_pow_log2W (r : Regs) : Dec.W r = 2 ^ Dec.log2W r := by
  have hW : Dec.W r = 32 ∨ Dec.W r = 64 := by unfold Dec.W; split_ifs <;> simp
  rcases hW with hW | hW <;> simp [Dec.log2W, hW]

/-- Settles O46, mode by mode. -/
theorem pageGeometryTable : Obligations.PageGeometryTable := by
  intro r
  have hmd := md_lt r
  rcases (by omega : md r = 0 ∨ md r = 1 ∨ md r = 2 ∨ md r = 3) with h | h | h | h <;>
    cases hp : pgs r <;>
    simp [Dec.twoPlane, Dec.pnBytes, Dec.col16, Dec.W, Dec.H, h, hp]

/-- Every row of the page geometry table fills the 4096 bytes of PNT. -/
theorem Dec.page_fills (r : Regs) :
    Dec.W r * Dec.H r * Dec.pnBytes r * (if Dec.twoPlane r then 2 else 1) = 4096 := by
  obtain ⟨-, -, -, -, -, hfill⟩ := pageGeometryTable r
  exact hfill

theorem base_evenBand (r : Regs) (p : Plane) (band : Fin 8) (h : band.val % 2 = 0) :
    base r p band = (reg r (baseReg p band)).toNat % 16 := by
  simp [base, bits, h]

theorem base_oddBand (r : Regs) (p : Plane) (band : Fin 8) (h : band.val % 2 = 1) :
    base r p band = (reg r (baseReg p band)).toNat / 16 := by
  have hreg := (reg r (baseReg p band)).isLt
  simp only [base, bits, h]
  omega

/-- Settles O47: bands 2j and 2j + 1 share a register, the even band its low nibble and the odd band its high one. -/
theorem baseNibbles : Obligations.BaseNibbles := by
  intro r j
  have hodd : (2 * j.val + 1) / 2 = j.val := by omega
  refine ⟨?_, ?_, ?_, ?_⟩
  · rw [base_evenBand _ _ _ (by simp)]
    simp [baseReg]
  · rw [base_oddBand _ _ _ (by simp)]
    simp [baseReg, hodd]
  · rw [base_evenBand _ _ _ (by simp)]
    simp [baseReg]
  · rw [base_oddBand _ _ _ (by simp)]
    simp [baseReg, hodd]

/-! ## The pattern-name address (R131 of 41_data_ports.md) as a mixed-radix number -/

/-- The plane as the leading digit of an address. -/
def Plane.digit : Plane → Nat
  | .A => 0
  | .B => 1

theorem Plane.digit_inj {p q : Plane} (h : p.digit = q.digit) : p = q := by
  cases p <;> cases q <;> simp [Plane.digit] at h <;> rfl

theorem Dec.W_pos (r : Regs) : 0 < Dec.W r := by
  unfold Dec.W; split_ifs <;> decide

theorem Dec.H_pos (r : Regs) : 0 < Dec.H r := by
  unfold Dec.H; split_ifs <;> decide

theorem Dec.pnBytes_pos (r : Regs) : 0 < Dec.pnBytes r := by
  rcases Dec.pnBytes_cases r with h | h <;> omega

/-- Plane B stands one whole page behind plane A. -/
theorem Dec.planeOff_eq_page (r : Regs) (h : Dec.twoPlane r = true) :
    Dec.planeOff r = Dec.H r * Dec.W r * Dec.pnBytes r := by
  have hfill := Dec.page_fills r
  rw [if_pos h, Nat.mul_comm (Dec.W r)] at hfill
  simp only [Dec.planeOff, h, if_true]
  omega

/-- The address has the digits plane, row, column and byte, in the bases of the page. -/
theorem pnAddr_eq_digits (r : Regs) (p : Plane) (y x b : Nat) (hp : p = .B → Dec.twoPlane r = true)
    (hy : y < Dec.H r) (hx : x < Dec.W r) (hb : b < Dec.pnBytes r) :
    pnAddr r p y x b = b + Dec.pnBytes r * (x + Dec.W r * (y + Dec.H r * p.digit)) := by
  have hcell : (y % Dec.H r) <<< Dec.log2W r + x % Dec.W r = y * Dec.W r + x := by
    rw [Nat.mod_eq_of_lt hy, Nat.mod_eq_of_lt hx, Nat.shiftLeft_eq, ← Dec.W_eq_two_pow_log2W]
  have hbyte : (if Dec.pnBytes r = 2 then b else 0) = b := by
    split_ifs with h2
    · rfl
    · have := Dec.pnBytes_cases r
      omega
  have hoff : (if Dec.twoPlane r && p == .B then Dec.planeOff r else 0) =
      Dec.H r * Dec.W r * Dec.pnBytes r * p.digit := by
    cases p with
    | A => simp [Plane.digit]
    | B => simp [Plane.digit, hp rfl, Dec.planeOff_eq_page]
  simp only [pnAddr, hcell, hbyte, hoff]
  ring

/-- The least digit and the rest of a number determine each other. -/
theorem digit_inj {n c d c' d' : Nat} (hc : c < n) (hc' : c' < n) (h : c + n * d = c' + n * d') :
    c = c' ∧ d = d' := by
  have hn : 0 < n := by omega
  obtain ⟨hd, hm⟩ := (Nat.div_mod_unique hn).mpr ⟨rfl, hc⟩
  obtain ⟨hd', hm'⟩ := (Nat.div_mod_unique hn).mpr ⟨h.symm, hc'⟩
  exact ⟨hm.symm.trans hm', hd.symm.trans hd'⟩

theorem pnAddr_inj (r : Regs) {p q : Plane} {y x b y' x' b' : Nat} (hp : p = .B → Dec.twoPlane r = true)
    (hq : q = .B → Dec.twoPlane r = true) (hy : y < Dec.H r) (hx : x < Dec.W r) (hb : b < Dec.pnBytes r)
    (hy' : y' < Dec.H r) (hx' : x' < Dec.W r) (hb' : b' < Dec.pnBytes r)
    (h : pnAddr r p y x b = pnAddr r q y' x' b') : p = q ∧ y = y' ∧ x = x' ∧ b = b' := by
  rw [pnAddr_eq_digits r p y x b hp hy hx hb, pnAddr_eq_digits r q y' x' b' hq hy' hx' hb'] at h
  obtain ⟨rfl, hcell⟩ := digit_inj hb hb' h
  obtain ⟨rfl, hrow⟩ := digit_inj hx hx' hcell
  obtain ⟨rfl, hplane⟩ := digit_inj hy hy' hrow
  exact ⟨Plane.digit_inj hplane, rfl, rfl, rfl⟩

/-- Every leading digit the mode has is the digit of a plane the mode has. -/
theorem Plane.exists_digit (r : Regs) {d : Nat} (hd : d < if Dec.twoPlane r then 2 else 1) :
    ∃ p : Plane, (p = .B → Dec.twoPlane r = true) ∧ p.digit = d := by
  match d with
  | 0 => exact ⟨.A, nofun, rfl⟩
  | 1 =>
    refine ⟨.B, fun _ => ?_, rfl⟩
    by_contra h
    simp [h] at hd
  | d + 2 => split_ifs at hd <;> omega

theorem pnAddr_surj (r : Regs) {a : Nat} (ha : a < 4096) :
    ∃ (p : Plane) (y x b : Nat), (p = .B → Dec.twoPlane r = true) ∧ y < Dec.H r ∧ x < Dec.W r ∧ b < Dec.pnBytes r ∧
      pnAddr r p y x b = a := by
  have hpage : a / Dec.pnBytes r / Dec.W r / Dec.H r < if Dec.twoPlane r then 2 else 1 := by
    rw [Nat.div_div_eq_div_mul, Nat.div_div_eq_div_mul]
    apply Nat.div_lt_of_lt_mul
    calc a < 4096 := ha
      _ = Dec.pnBytes r * (Dec.W r * Dec.H r) * (if Dec.twoPlane r then 2 else 1) := by
        rw [← Dec.page_fills r]; ring
  obtain ⟨p, hp, hdigit⟩ := Plane.exists_digit r hpage
  have hy := Nat.mod_lt (a / Dec.pnBytes r / Dec.W r) (Dec.H_pos r)
  have hx := Nat.mod_lt (a / Dec.pnBytes r) (Dec.W_pos r)
  have hb := Nat.mod_lt a (Dec.pnBytes_pos r)
  refine ⟨p, _, _, _, hp, hy, hx, hb, ?_⟩
  rw [pnAddr_eq_digits r p _ _ _ hp hy hx hb, hdigit, Nat.mod_add_div, Nat.mod_add_div, Nat.mod_add_div]

/-- Settles O19: the address is a number written in the digits of its cell and byte. -/
theorem patternNameAddressIsABijection : Obligations.PatternNameAddressIsABijection :=
  fun r => ⟨fun _ _ _ _ _ _ _ _ => pnAddr_inj r, fun _ => pnAddr_surj r⟩

/-! ## Tables as data (R29 of 10_state.md; log 7) -/

theorem Memory.read_of_not_listed {m : Memory} {a : Nat} (h : ∀ c ∈ m, c.1 ≠ a) : Memory.read m a = 0 := by
  induction m with
  | nil => rfl
  | cons c m ih =>
    rw [List.forall_mem_cons] at h
    rw [Memory.read, if_neg h.1, ih h.2]

/-- What a canonical table lists is what it reads as other than 0x00. -/
theorem Memory.mem_iff_read {n : Nat} {m : Memory} (h : Memory.wf n m = true) (c : Host.Cell) :
    c ∈ m ↔ c.2 ≠ 0 ∧ Memory.read m c.1 = c.2 := by
  obtain ⟨hrise, hbyte⟩ := (Memory.wf_iff n m).mp h
  clear h
  induction m with
  | nil =>
    rw [Memory.read, iff_false_left List.not_mem_nil]
    exact fun ⟨hne, h0⟩ => hne h0.symm
  | cons d m ih =>
    obtain ⟨hlt, hrise⟩ := List.pairwise_cons.mp hrise
    obtain ⟨⟨-, hd⟩, hbyte⟩ := List.forall_mem_cons.mp hbyte
    rw [List.mem_cons, ih hrise hbyte, Memory.read]
    by_cases hk : d.1 = c.1
    · have hrest : Memory.read m c.1 = 0 := Memory.read_of_not_listed fun e he => by have := hlt e he; omega
      rw [if_pos hk, hrest]
      constructor
      · rintro (rfl | ⟨hne, h0⟩)
        · exact ⟨hd, rfl⟩
        · exact absurd h0.symm hne
      · rintro ⟨-, hv⟩
        exact .inl (Prod.ext hk hv).symm
    · rw [if_neg hk]
      exact or_iff_right fun he => hk (he ▸ rfl)

/-- Canonical tables that read alike at every address are equal. -/
theorem Memory.eq_of_read_eq {n : Nat} {m m' : Memory} (hm : Memory.wf n m = true) (hm' : Memory.wf n m' = true)
    (h : ∀ a < n, Memory.read m a = Memory.read m' a) : m = m' := by
  have : Std.Antisymm fun c d : Host.Cell => c.1 < d.1 := ⟨fun _ _ h h' => absurd h (Nat.lt_asymm h')⟩
  have : Std.Irrefl fun c d : Host.Cell => c.1 < d.1 := ⟨fun c => Nat.lt_irrefl c.1⟩
  obtain ⟨hrise, hbound⟩ := (Memory.wf_iff n m).mp hm
  obtain ⟨hrise', hbound'⟩ := (Memory.wf_iff n m').mp hm'
  refine hrise.eq_of_mem_iff hrise' fun c => ?_
  constructor
  · intro hc
    rw [Memory.mem_iff_read hm', ← h c.1 (hbound c hc).1]
    exact (Memory.mem_iff_read hm c).mp hc
  · intro hc
    rw [Memory.mem_iff_read hm, h c.1 (hbound' c hc).1]
    exact (Memory.mem_iff_read hm' c).mp hc

theorem State.tablesOk_iff (s : State) :
    s.tablesOk = true ↔ Memory.wf 4096 s.pnt = true ∧ Memory.wf (min 256 s.config.satBytes) s.sat = true ∧
      Memory.wf 256 s.scrA = true ∧ Memory.wf 256 s.scrB = true ∧
      Memory.wf (4 * min 256 s.config.palN) s.cram = true ∧ ∀ c ∈ s.cram, c.1 % 4 ≠ 3 := by
  simp [State.tablesOk, and_assoc]

/-- Every key below the palette's end that names a component is the key of a CRAM byte (R80). -/
theorem exists_cramKey {n a : Nat} (ha : a < 4 * min 256 n) (h3 : a % 4 ≠ 3) :
    ∃ (i : Byte) (k : Fin 3), i.toNat < n ∧ cramKey i k = a := by
  refine ⟨BitVec.ofNat 8 (a / 4), ⟨a % 4, by omega⟩, ?_, ?_⟩ <;> simp [cramKey] <;> omega

theorem State.cram_eq_of_memRead_eq {s t : State} (hs : s.tablesOk = true) (ht : t.tablesOk = true)
    (hc : s.config = t.config) (h : ∀ i k, s.memRead (.cram i k) = t.memRead (.cram i k)) : s.cram = t.cram := by
  obtain ⟨-, -, -, -, hwf, hkey⟩ := (State.tablesOk_iff s).mp hs
  obtain ⟨-, -, -, -, hwf', hkey'⟩ := (State.tablesOk_iff t).mp ht
  refine Memory.eq_of_read_eq hwf (hc ▸ hwf') fun a ha => ?_
  by_cases h3 : a % 4 = 3
  · rw [Memory.read_of_not_listed fun c hcm he => hkey c hcm (he ▸ h3),
      Memory.read_of_not_listed fun c hcm he => hkey' c hcm (he ▸ h3)]
  · obtain ⟨i, k, hi, rfl⟩ := exists_cramKey ha h3
    simpa [State.memRead, ← hc, hi] using h i k

theorem State.sat_eq_of_memRead_eq {s t : State} (hs : s.tablesOk = true) (ht : t.tablesOk = true)
    (hc : s.config = t.config) (h : ∀ a, s.memRead (.sat a) = t.memRead (.sat a)) : s.sat = t.sat := by
  obtain ⟨-, hwf, -⟩ := (State.tablesOk_iff s).mp hs
  obtain ⟨-, hwf', -⟩ := (State.tablesOk_iff t).mp ht
  refine Memory.eq_of_read_eq hwf (hc ▸ hwf') fun a ha => ?_
  obtain ⟨ha, hsize⟩ := Nat.lt_min.mp ha
  simpa [State.memRead, ← hc, Nat.mod_eq_of_lt ha, hsize] using h (BitVec.ofNat 8 a)

/-- Settles O42, table by table: what a canonical table lists is what it reads as. -/
theorem canonicalTablesAreExtensional : Obligations.CanonicalTablesAreExtensional := by
  rintro s t ⟨hs, -⟩ ⟨ht, -⟩ hc h
  obtain ⟨hpnt, -, hscrA, hscrB, -⟩ := (State.tablesOk_iff s).mp hs
  obtain ⟨hpnt', -, hscrA', hscrB', -⟩ := (State.tablesOk_iff t).mp ht
  refine ⟨?_, State.sat_eq_of_memRead_eq hs ht hc fun _ => h _, ?_, ?_,
    State.cram_eq_of_memRead_eq hs ht hc fun _ _ => h _⟩
  · exact Memory.eq_of_read_eq hpnt hpnt' fun a ha => by
      simpa [State.memRead, Nat.mod_eq_of_lt ha] using h (.pnt (BitVec.ofNat 12 a))
  · exact Memory.eq_of_read_eq hscrA hscrA' fun a ha => by
      simpa [State.memRead, Nat.mod_eq_of_lt ha] using h (.scr .A (BitVec.ofNat 8 a))
  · exact Memory.eq_of_read_eq hscrB hscrB' fun a ha => by
      simpa [State.memRead, Nat.mod_eq_of_lt ha] using h (.scr .B (BitVec.ofNat 8 a))

/-! ## The status latches: what a transaction can do to P6 and P7 (R63 of 10_state.md, R163 of 42_status_control.md) -/

/-- All that a transaction can do to the status latch P6 and the control latch P7. -/
theorem exec_latch_cases {i : Instr} {s t : State} (h : exec i s = .next t) :
    (t.P 6 = s.P 6 ∧ t.P 7 = s.P 7) ∨ (∃ v, i = .outP6 v ∧ t = s.quiet.statusClear v) ∨
    (∃ v, i = .outP7 v ∧ bit v 0 = false ∧ t = s.quiet.setP 7 v) ∨ (i = .tick ∧ t = s.quiet.dot) ∨
    ((i = .powerOn ∨ ∃ v, i = .outP7 v ∧ bit v 0 = true) ∧ t.P 6 = 0 ∧ t.P 7 = 0) := by
  cases i with
  | outP6 v => exact .inr (.inl ⟨v, rfl, (Host.Outcome.next.inj h).symm⟩)
  | outP7 v =>
    obtain rfl := Host.Outcome.next.inj h
    by_cases hv : bit v 0 = true
    · exact .inr (.inr (.inr (.inr ⟨.inr ⟨v, rfl, hv⟩, by simp [hv], by simp [hv]⟩)))
    · exact .inr (.inr (.inl ⟨v, rfl, by simpa using hv, if_neg hv⟩))
  | tick => exact .inr (.inr (.inr (.inl ⟨rfl, (Host.Outcome.next.inj h).symm⟩)))
  | powerOn =>
    obtain rfl := Host.Outcome.next.inj h
    exact .inr (.inr (.inr (.inr ⟨.inl rfl, rfl, rfl⟩)))
  | _ =>
    obtain rfl := Host.Outcome.next.inj h
    left
    simp [State.P_addrAdvance]

theorem State.fv_dot (s : State) :
    s.dot.fv = (s.fv || (geometryValid s.config s.regs && decide (vblankPos s.config s.regs = some s.beamNext) &&
      iev s.regs)) := by
  by_cases hg : geometryValid s.config s.regs = true
  · rw [State.dot_valid s hg, State.fv_arrive, hg, Bool.true_and]
    rfl
  · simp [State.dot_invalid s hg, hg]

theorem State.fp_dot (s : State) :
    s.dot.fp = (s.fp || (geometryValid s.config s.regs && decide (rasterPos s.config s.regs = some s.beamNext) &&
      iep s.regs)) := by
  by_cases hg : geometryValid s.config s.regs = true
  · rw [State.dot_valid s hg, State.fp_arrive, hg, Bool.true_and]
    rfl
  · simp [State.dot_invalid s hg, hg]

theorem State.dot_position (s : State) (hg : geometryValid s.config s.regs = true) :
    s.dot.hpos = BitVec.ofNat 11 s.beamNext.1 ∧ s.dot.vpos = BitVec.ofNat 9 s.beamNext.2 := by
  rw [State.dot_valid s hg]
  simp [State.moveBeam]

/-- A flag that TICK sets was enabled, and the beam is at its position. -/
theorem State.dot_sets_fv {s : State} (h0 : s.fv = false) (h1 : s.dot.fv = true) :
    iev s.regs = true ∧
      ∃ p, vblankPos s.config s.regs = some p ∧ s.dot.hpos = BitVec.ofNat 11 p.1 ∧ s.dot.vpos = BitVec.ofNat 9 p.2 := by
  simp only [State.fv_dot, h0, Bool.false_or, Bool.and_eq_true, decide_eq_true_eq] at h1
  obtain ⟨⟨hg, hpos⟩, hen⟩ := h1
  exact ⟨hen, _, hpos, State.dot_position s hg⟩

theorem State.dot_sets_fp {s : State} (h0 : s.fp = false) (h1 : s.dot.fp = true) :
    iep s.regs = true ∧
      ∃ p, rasterPos s.config s.regs = some p ∧ s.dot.hpos = BitVec.ofNat 11 p.1 ∧ s.dot.vpos = BitVec.ofNat 9 p.2 := by
  simp only [State.fp_dot, h0, Bool.false_or, Bool.and_eq_true, decide_eq_true_eq] at h1
  obtain ⟨⟨hg, hpos⟩, hen⟩ := h1
  exact ⟨hen, _, hpos, State.dot_position s hg⟩

theorem State.dot_keeps_fv {s : State} (h : s.fv = true) : s.dot.fv = true := by simp [State.fv_dot, h]
theorem State.dot_keeps_fp {s : State} (h : s.fp = true) : s.dot.fp = true := by simp [State.fp_dot, h]

/-- Settles O33, from all that a transaction can do to P6. -/
theorem onlyTheseTransactionsChangeAFlag : Obligations.OnlyTheseTransactionsChangeAFlag := by
  intro i s t h
  obtain ⟨h6, -⟩ | ⟨v, rfl, rfl⟩ | ⟨v, rfl, -, rfl⟩ | ⟨rfl, rfl⟩ | ⟨hi, h6, -⟩ := exec_latch_cases h
  · have hfv : t.fv = s.fv := congrArg (bit · 0) h6
    have hfp : t.fp = s.fp := congrArg (bit · 1) h6
    simp +contextual [hfv, hfp]
  · have hfv : s.quiet.fv = s.fv := rfl
    have hfp : s.quiet.fp = s.fp := rfl
    simp +contextual [State.fv_statusClear, State.fp_statusClear, hfv, hfp]
  · have hfv : (s.quiet.setP 7 v).fv = s.fv := by simp [State.fv]
    have hfp : (s.quiet.setP 7 v).fp = s.fp := by simp [State.fp]
    simp +contextual [hfv, hfp]
  · refine ⟨fun h0 h1 => ⟨rfl, State.dot_sets_fv (s := s.quiet) h0 h1⟩,
      fun h0 h1 => ⟨rfl, State.dot_sets_fp (s := s.quiet) h0 h1⟩, fun h1 h0 => ?_, fun h1 h0 => ?_⟩
    · exact absurd (State.dot_keeps_fv (s := s.quiet) h1) (by simp [h0])
    · exact absurd (State.dot_keeps_fp (s := s.quiet) h1) (by simp [h0])
  · have hfv : t.fv = false := by simp [State.fv, h6, bit]
    have hfp : t.fp = false := by simp [State.fp, h6, bit]
    simp only [hfv, hfp, Bool.false_eq_true, false_implies, implies_true, true_and]
    rcases hi with rfl | ⟨v, rfl, hv⟩
    · exact ⟨fun _ _ => .inl rfl, fun _ _ => .inl rfl⟩
    · exact ⟨fun _ _ => .inr ⟨v, hv, .inr rfl⟩, fun _ _ => .inr ⟨v, .inr ⟨rfl, hv⟩⟩⟩

/-! ## The latch part of the invariant (R24 of 10_state.md, R163 of 42_status_control.md) -/

theorem toNat_lt_four_iff (x : Byte) : x.toNat < 4 ↔ ∀ k, 2 ≤ k → bit x k = false := by
  constructor
  · intro hx k hk
    exact Nat.testBit_lt_two_pow (hx.trans_le (Nat.pow_le_pow_right Nat.two_pos hk))
  · exact fun h => Nat.lt_pow_two_of_testBit (n := 2) x.toNat h

theorem State.latchesOk_iff (s : State) :
    s.latchesOk = true ↔ (∀ k, 2 ≤ k → bit (s.P 6) k = false) ∧ bit (s.P 7) 0 = false := by
  simp [State.latchesOk, toNat_lt_four_iff]

theorem State.bit_P_statusClear (s : State) (v : Byte) (k : Nat) (hk : 2 ≤ k) :
    bit ((s.statusClear v).P 6) k = bit (s.P 6) k := by
  have h0 : ¬0 = k := by omega
  have h1 : ¬1 = k := by omega
  unfold State.statusClear
  split_ifs <;> simp [State.setFv, State.setFp, h0, h1]

theorem State.bit_P_dot (s : State) (j : Fin 8) (k : Nat) (h : j ≠ 6 ∨ 2 ≤ k) : bit (s.dot.P j) k = bit (s.P j) k := by
  by_cases hg : geometryValid s.config s.regs = true
  · rw [State.dot_valid s hg, State.bit_P_arrive _ _ j k h]
    rfl
  · rw [State.dot_invalid s hg]

theorem exec_latchesOk {i : Instr} {s t : State} (h : exec i s = .next t) (hs : s.latchesOk = true) :
    t.latchesOk = true := by
  rw [State.latchesOk_iff] at hs ⊢
  obtain ⟨h6, h7⟩ := hs
  obtain ⟨he6, he7⟩ | ⟨v, -, rfl⟩ | ⟨v, -, hv, rfl⟩ | ⟨-, rfl⟩ | ⟨-, he6, he7⟩ := exec_latch_cases h
  · rw [he6, he7]
    exact ⟨h6, h7⟩
  · exact ⟨fun k hk => (State.bit_P_statusClear s.quiet v k hk).trans (h6 k hk),
      (congrArg (bit · 0) (State.P_statusClear s.quiet v 7 (by decide))).trans h7⟩
  · simpa using ⟨h6, hv⟩
  · exact ⟨fun k hk => (State.bit_P_dot s.quiet 6 k (.inr hk)).trans (h6 k hk),
      (State.bit_P_dot s.quiet 7 0 (.inl (by decide))).trans h7⟩
  · simp [he6, he7, bit]

/-! ## The tables part of the invariant (R29 of 10_state.md; log 7) -/

/-- The five tables as data. -/
def State.tables (s : State) : Memory × Memory × Memory × Memory × Memory := (s.pnt, s.sat, s.scrA, s.scrB, s.cram)

/-- A store sees no more of the state than the tables and their sizes. -/
theorem State.memWrite_tables_congr {s t : State} (htab : t.tables = s.tables) (hc : t.config = s.config) (l : Loc)
    (v : Byte) : (t.memWrite l v).tables = (s.memWrite l v).tables := by
  simp only [State.tables, Prod.mk.injEq] at htab
  obtain ⟨hpnt, hsat, hscrA, hscrB, hcram⟩ := htab
  rcases l with a | a | ⟨_ | _, a⟩ | ⟨i, k⟩ <;> simp only [State.memWrite, hc] <;> (try split_ifs) <;>
    simp [State.tables, hpnt, hsat, hscrA, hscrB, hcram]

theorem State.tablesOk_congr {s t : State} (htab : t.tables = s.tables) (hc : t.config = s.config)
    (h : s.tablesOk = true) : t.tablesOk = true := by
  simp only [State.tables, Prod.mk.injEq] at htab
  obtain ⟨hpnt, hsat, hscrA, hscrB, hcram⟩ := htab
  rwa [State.tablesOk, hpnt, hsat, hscrA, hscrB, hcram, hc]

/-- A store to any byte keeps the tables canonical and in range. -/
theorem State.tablesOk_memWrite {s : State} (h : s.tablesOk = true) (l : Loc) (v : Byte) :
    (s.memWrite l v).tablesOk = true := by
  cases hp : l.present s.config with
  | false => rwa [State.memWrite_absent s l v hp]
  | true =>
    rw [State.tablesOk_iff] at h ⊢
    obtain ⟨hpnt, hsat, hscrA, hscrB, hcram, hkey⟩ := h
    rcases l with a | a | ⟨_ | _, a⟩ | ⟨i, k⟩
    · exact ⟨Memory.wf_write _ _ _ _ a.isLt hpnt, hsat, hscrA, hscrB, hcram, hkey⟩
    · have ha : a.toNat < s.config.satBytes := by simpa using hp
      simp only [State.memWrite, ha, if_true]
      exact ⟨hpnt, Memory.wf_write _ _ _ _ (lt_min a.isLt ha) hsat, hscrA, hscrB, hcram, hkey⟩
    · exact ⟨hpnt, hsat, Memory.wf_write _ _ _ _ a.isLt hscrA, hscrB, hcram, hkey⟩
    · exact ⟨hpnt, hsat, hscrA, Memory.wf_write _ _ _ _ a.isLt hscrB, hcram, hkey⟩
    · have hi : i.toNat < s.config.palN := by simpa using hp
      have hlt : cramKey i k < 4 * min 256 s.config.palN := by
        have := i.isLt
        have := k.isLt
        simp only [cramKey]
        omega
      simp only [State.memWrite, hi, if_true]
      refine ⟨hpnt, hsat, hscrA, hscrB, Memory.wf_write _ _ _ _ hlt hcram, fun c hc => ?_⟩
      rcases Memory.key_write _ _ _ c hc with hck | hc
      · have := k.isLt
        rw [hck, cramKey]
        omega
      · exact hkey c hc

section
variable (s : State)

theorem State.tables_pnStepWrite : s.pnStepWrite.tables = s.tables := by simp [State.tables]
theorem State.tables_saAdvance : s.saAdvance.tables = s.tables := by simp [State.tables]
theorem State.tables_scAdvance : s.scAdvance.tables = s.tables := by simp [State.tables]
theorem State.tables_palStepWrite : s.palStepWrite.tables = s.tables := by simp [State.tables]

end

/-- All that a transaction can do to the tables: nothing, one store, or the clearing of reset and POWERON. -/
theorem exec_tables_cases {i : Instr} {s t : State} (h : exec i s = .next t) :
    t.tables = s.tables ∨ (∃ l v, t.tables = (s.memWrite l v).tables) ∨ t.tables = ([], [], [], [], []) := by
  have store (j : Fin 8) (l : Loc) (v : Byte) : ((s.quiet.setP j v).memWrite l v).tables = (s.memWrite l v).tables :=
    State.memWrite_tables_congr (s := s) (t := s.quiet.setP j v) rfl rfl l v
  cases i with
  | outP0 v =>
    obtain rfl := Host.Outcome.next.inj h
    exact .inr (.inl ⟨_, v, (State.tables_pnStepWrite _).trans (store 0 _ v)⟩)
  | outP1 v =>
    obtain rfl := Host.Outcome.next.inj h
    exact .inr (.inl ⟨_, v, (State.tables_saAdvance _).trans (store 1 _ v)⟩)
  | outP2 v =>
    obtain rfl := Host.Outcome.next.inj h
    exact .inr (.inl ⟨_, v, (State.tables_scAdvance _).trans (store 2 _ v)⟩)
  | outP3 v =>
    obtain rfl := Host.Outcome.next.inj h
    exact .inr (.inl ⟨_, v, (State.tables_palStepWrite _).trans (store 3 _ v)⟩)
  | outP7 v =>
    obtain rfl := Host.Outcome.next.inj h
    by_cases hv : bit v 0 = true
    · exact .inr (.inr (by simp [hv, State.tables]))
    · exact .inl (by simp [hv, State.tables])
  | powerOn =>
    obtain rfl := Host.Outcome.next.inj h
    exact .inr (.inr rfl)
  | _ =>
    obtain rfl := Host.Outcome.next.inj h
    exact .inl (by simp [State.tables])

/-- Empty tables are canonical. -/
theorem State.tablesOk_of_empty {s : State} (h : s.tables = ([], [], [], [], [])) : s.tablesOk = true := by
  simp only [State.tables, Prod.mk.injEq] at h
  simp [State.tablesOk, Memory.wf, Memory.rising, h]

theorem exec_tablesOk {i : Instr} {s t : State} (h : exec i s = .next t) (hs : s.tablesOk = true) :
    t.tablesOk = true := by
  have hc := exec_config h
  obtain htab | ⟨l, v, htab⟩ | htab := exec_tables_cases h
  · exact State.tablesOk_congr htab hc hs
  · exact State.tablesOk_congr htab (hc.trans (State.memWrite_config s l v).symm) (State.tablesOk_memWrite hs l v)
  · exact State.tablesOk_of_empty htab

theorem exec_inv {i : Instr} {s t : State} (h : exec i s = .next t) (hs : s.Inv) : t.Inv := by
  obtain ⟨htables, hlatches⟩ := hs
  exact ⟨exec_tablesOk h htables, exec_latchesOk h hlatches⟩

/-- Settles O40, from what a transaction can do to the tables and to the latches P6 and P7. -/
theorem stepKeepsTheInvariant : Obligations.StepKeepsTheInvariant := by
  intro s t hs h
  obtain ⟨-, rfl⟩ | ⟨w, rest, i, -, -, hexec⟩ := step_next_cases h
  · exact hs
  · exact exec_inv hexec hs

/-! ## The registers (R20, R62 of 10_state.md) -/

/-- The cursor operations change a register only if it holds their own cursor. -/
theorem State.le_one_of_R_pnAdvance_ne {s : State} {k : Fin 64} (h : s.pnAdvance.R k ≠ s.R k) : k.val ≤ 1 := by
  by_contra hk
  exact h (State.R_pnAdvance s k (by rintro rfl; exact hk (by decide)) (by rintro rfl; exact hk (by decide)))

theorem State.le_one_of_R_pnStepRead_ne {s : State} {k : Fin 64} (h : s.pnStepRead.R k ≠ s.R k) : k.val ≤ 1 := by
  obtain ⟨-, -, hstep⟩ | ⟨-, hstep⟩ := State.pnStepRead_cases s <;> rw [hstep] at h
  · exact absurd rfl h
  · exact State.le_one_of_R_pnAdvance_ne h

theorem State.le_one_of_R_pnStepWrite_ne {s : State} {k : Fin 64} (h : s.pnStepWrite.R k ≠ s.R k) : k.val ≤ 1 := by
  obtain ⟨-, -, hstep⟩ | ⟨-, hstep⟩ := State.pnStepWrite_cases s <;> rw [hstep] at h
  · exact absurd rfl h
  · exact State.le_one_of_R_pnAdvance_ne h

theorem State.eq_three_of_R_saAdvance_ne {s : State} {k : Fin 64} (h : s.saAdvance.R k ≠ s.R k) : k = 3 := by
  by_contra hk
  exact h (by simp [State.R_saAdvance, hk])

theorem State.eq_two_or_four_of_R_scAdvance_ne {s : State} {k : Fin 64} (h : s.scAdvance.R k ≠ s.R k) :
    k = 2 ∨ k = 4 := by
  by_contra hk
  rw [not_or] at hk
  exact h (State.R_scAdvance s k hk.2 hk.1)

theorem State.eq_five_of_R_cpAdvance_ne {s : State} {k : Fin 64} (h : s.cpAdvance.R k ≠ s.R k) : k = 5 := by
  by_contra hk
  exact h (by simp [State.R_cpAdvance, hk])

theorem State.eq_five_of_R_palStepRead_ne {s : State} {k : Fin 64} (h : s.palStepRead.R k ≠ s.R k) : k = 5 := by
  obtain ⟨-, hstep⟩ | ⟨-, hstep⟩ := State.palStepRead_cases s <;> rw [hstep] at h
  · exact State.eq_five_of_R_cpAdvance_ne h
  · exact absurd rfl h

theorem State.eq_five_of_R_palStepWrite_ne {s : State} {k : Fin 64} (h : s.palStepWrite.R k ≠ s.R k) : k = 5 := by
  obtain ⟨-, hstep⟩ | ⟨-, hstep⟩ := State.palStepWrite_cases s <;> rw [hstep] at h
  · exact State.eq_five_of_R_cpAdvance_ne h
  · exact absurd rfl h

/-- Settles O43, transaction by transaction. -/
theorem onlyTheseTransactionsChangeARegister : Obligations.OnlyTheseTransactionsChangeARegister := by
  intro i s t k h hne
  cases i with
  | outP0 v =>
    obtain rfl := Host.Outcome.next.inj h
    have hk : k.val ≤ 1 := State.le_one_of_R_pnStepWrite_ne (hne.trans_eq (by simp))
    simp [hk]
  | inP0 =>
    obtain rfl := Host.Outcome.next.inj h
    have hk : k.val ≤ 1 := State.le_one_of_R_pnStepRead_ne (hne.trans_eq (by simp))
    simp [hk]
  | outP1 v | inP1 =>
    obtain rfl := Host.Outcome.next.inj h
    have hk : k = 3 := State.eq_three_of_R_saAdvance_ne (hne.trans_eq (by simp))
    simp [hk]
  | outP2 v | inP2 =>
    obtain rfl := Host.Outcome.next.inj h
    have hk : k = 2 ∨ k = 4 := State.eq_two_or_four_of_R_scAdvance_ne (hne.trans_eq (by simp))
    simp [hk]
  | outP3 v =>
    obtain rfl := Host.Outcome.next.inj h
    have hk : k = 5 := State.eq_five_of_R_palStepWrite_ne (hne.trans_eq (by simp))
    simp [hk]
  | inP3 =>
    obtain rfl := Host.Outcome.next.inj h
    have hk : k = 5 := State.eq_five_of_R_palStepRead_ne (hne.trans_eq (by simp))
    simp [hk]
  | outP4 v =>
    obtain rfl := Host.Outcome.next.inj h
    have hk : s.addr.toFin = k := by
      by_contra hk
      exact hne (by simp [hk])
    simp [hk]
  | outP7 v =>
    obtain rfl := Host.Outcome.next.inj h
    split_ifs at hne with hv
    · have hk : Cleared k := by
        by_contra hk
        exact hne (by simpa [State.R_resetOp] using fun h0 => absurd h0 hk)
      simp [hv, hk]
    · exact absurd (by simp) hne
  | powerOn => simp
  | _ =>
    obtain rfl := Host.Outcome.next.inj h
    exact absurd (by simp) hne

/-! ## What no bus transaction sees: the beam and the pending words (R30, R64 of 10_state.md) -/

/-- The state with the beam and the pending words replaced. -/
def State.reframe (s : State) (h : BitVec 11) (v : BitVec 9) (q : List TWord) : State :=
  { s with hpos := h, vpos := v, input := q }

section
variable (s : State) (h : BitVec 11) (v : BitVec 9) (q : List TWord)

@[simp] theorem State.reframe_regs : (s.reframe h v q).regs = s.regs := rfl
@[simp] theorem State.reframe_config : (s.reframe h v q).config = s.config := rfl
@[simp] theorem State.reframe_phR : (s.reframe h v q).phR = s.phR := rfl
@[simp] theorem State.reframe_phW : (s.reframe h v q).phW = s.phW := rfl
@[simp] theorem State.reframe_subR : (s.reframe h v q).subR = s.subR := rfl
@[simp] theorem State.reframe_subW : (s.reframe h v q).subW = s.subW := rfl
@[simp] theorem State.R_reframe (i : Fin 64) : (s.reframe h v q).R i = s.R i := rfl
@[simp] theorem State.P_reframe (j : Fin 8) : (s.reframe h v q).P j = s.P j := rfl
@[simp] theorem State.addr_reframe : (s.reframe h v q).addr = s.addr := rfl
@[simp] theorem State.ari_reframe : (s.reframe h v q).ari = s.ari := rfl
@[simp] theorem State.awi_reframe : (s.reframe h v q).awi = s.awi := rfl
@[simp] theorem State.pnPortLoc_reframe (phase : Fin 2) : (s.reframe h v q).pnPortLoc phase = s.pnPortLoc phase := rfl
@[simp] theorem State.scPortLoc_reframe : (s.reframe h v q).scPortLoc = s.scPortLoc := rfl
@[simp] theorem State.memRead_reframe (l : Loc) : (s.reframe h v q).memRead l = s.memRead l :=
  State.memRead_congr rfl rfl rfl rfl rfl rfl l

@[simp] theorem State.quiet_reframe : (s.reframe h v q).quiet = s.quiet.reframe h v q := rfl
@[simp] theorem State.reply_reframe (r : Byte) : (s.reframe h v q).reply r = (s.reply r).reframe h v q := rfl
@[simp] theorem State.setP_reframe (j : Fin 8) (x : Byte) :
    (s.reframe h v q).setP j x = (s.setP j x).reframe h v q := rfl
@[simp] theorem State.setR_reframe (i : Fin 64) (x : Byte) :
    (s.reframe h v q).setR i x = (s.setR i x).reframe h v q := rfl
@[simp] theorem State.resetOp_reframe : (s.reframe h v q).resetOp = s.resetOp.reframe h v q := rfl

@[simp] theorem State.memWrite_reframe (l : Loc) (x : Byte) :
    (s.reframe h v q).memWrite l x = (s.memWrite l x).reframe h v q := by
  rcases l with a | a | ⟨_ | _, a⟩ | ⟨i, k⟩ <;>
    simp only [State.memWrite, apply_ite (State.reframe · h v q)] <;> rfl

@[simp] theorem State.pnAdvance_reframe : (s.reframe h v q).pnAdvance = s.pnAdvance.reframe h v q := by
  unfold State.pnAdvance State.pnAdvanceX State.pnAdvanceY
  simp only [apply_ite (State.reframe · h v q)]
  rfl

@[simp] theorem State.pnStepRead_reframe : (s.reframe h v q).pnStepRead = s.pnStepRead.reframe h v q := by
  unfold State.pnStepRead
  dsimp only [State.reframe]
  split_ifs
  · rfl
  · exact State.pnAdvance_reframe { s with phR := 0 } h v q

@[simp] theorem State.pnStepWrite_reframe : (s.reframe h v q).pnStepWrite = s.pnStepWrite.reframe h v q := by
  unfold State.pnStepWrite
  dsimp only [State.reframe]
  split_ifs
  · rfl
  · exact State.pnAdvance_reframe { s with phW := 0 } h v q

@[simp] theorem State.saAdvance_reframe : (s.reframe h v q).saAdvance = s.saAdvance.reframe h v q := by
  unfold State.saAdvance
  simp only [apply_ite (State.reframe · h v q)]
  rfl

@[simp] theorem State.scAdvance_reframe : (s.reframe h v q).scAdvance = s.scAdvance.reframe h v q := by
  unfold State.scAdvance
  simp only [apply_ite (State.reframe · h v q)]
  rfl

@[simp] theorem State.palStepRead_reframe : (s.reframe h v q).palStepRead = s.palStepRead.reframe h v q := by
  unfold State.palStepRead State.cpAdvance
  simp only [apply_ite (State.reframe · h v q)]
  rfl

@[simp] theorem State.palStepWrite_reframe : (s.reframe h v q).palStepWrite = s.palStepWrite.reframe h v q := by
  unfold State.palStepWrite State.cpAdvance
  simp only [apply_ite (State.reframe · h v q)]
  rfl

@[simp] theorem State.restart_reframe (a : Fin 64) :
    (s.reframe h v q).restart a = (s.restart a).reframe h v q := by
  unfold State.restart
  simp only [apply_ite (State.reframe · h v q)]
  rfl

@[simp] theorem State.addrAdvance_reframe (f : Bool) :
    (s.reframe h v q).addrAdvance f = (s.addrAdvance f).reframe h v q := by
  cases f <;> rfl

@[simp] theorem State.statusClear_reframe (x : Byte) :
    (s.reframe h v q).statusClear x = (s.statusClear x).reframe h v q := by
  unfold State.statusClear
  cases bit x 0 <;> cases bit x 1 <;> rfl

@[simp] theorem State.vblankEvent_reframe : (s.reframe h v q).vblankEvent = s.vblankEvent.reframe h v q := by
  unfold State.vblankEvent
  simp only [apply_ite (State.reframe · h v q)]
  rfl

@[simp] theorem State.rasterEvent_reframe : (s.reframe h v q).rasterEvent = s.rasterEvent.reframe h v q := by
  unfold State.rasterEvent
  simp only [apply_ite (State.reframe · h v q)]
  rfl

/-- The events of an arrival depend on the position arrived at, not on where the beam stands. -/
@[simp] theorem State.arrive_reframe (p : Nat × Nat) :
    (s.reframe h v q).arrive p = (s.arrive p).reframe h v q := by
  unfold State.arrive
  by_cases hv : vblankPos s.config s.regs = some p <;> by_cases hr : rasterPos s.config s.regs = some p <;>
    simp [hv, hr]

end

/-- No bus transaction sees the beam or the pending words: it does the same with any others in their place. -/
theorem exec_reframe {i : Instr} {s t : State} (hti : i ≠ .tick) (hpo : i ≠ .powerOn) (h : exec i s = .next t)
    (x : BitVec 11) (y : BitVec 9) (q : List TWord) : exec i (s.reframe x y q) = .next (t.reframe x y q) := by
  cases i with
  | tick => exact absurd rfl hti
  | powerOn => exact absurd rfl hpo
  | outP7 v =>
    obtain rfl := Host.Outcome.next.inj h
    refine congrArg Host.Outcome.next ?_
    split_ifs <;> simp
  | _ =>
    obtain rfl := Host.Outcome.next.inj h
    refine congrArg Host.Outcome.next ?_
    simp

theorem exec_next (i : Instr) (s : State) : ∃ t, exec i s = .next t := by
  cases i <;> exact ⟨_, rfl⟩

theorem State.dot_update_input (s : State) (q : List TWord) : { s with input := q }.dot = { s.dot with input := q } := by
  by_cases hv : geometryValid s.config s.regs
  · have harrive := State.arrive_reframe (s.moveBeam s.beamNext) (s.moveBeam s.beamNext).hpos
      (s.moveBeam s.beamNext).vpos q s.beamNext
    rw [State.dot_valid { s with input := q } hv, State.dot_valid s hv]
    refine harrive.trans ?_
    simp [State.reframe]
  · rw [State.dot_invalid { s with input := q } hv, State.dot_invalid s hv]

/-- A bus transaction leaves the beam: with the beam put where it stands, it ends in the same state. -/
theorem exec_beam {i : Instr} {s t : State} (hti : i ≠ .tick) (hpo : i ≠ .powerOn) (h : exec i s = .next t) :
    SameBeam s t := by
  have hself : exec i s = .next (t.reframe s.hpos s.vpos s.input) := exec_reframe hti hpo h s.hpos s.vpos s.input
  obtain ht : t.reframe s.hpos s.vpos s.input = t := Host.Outcome.next.inj (hself.symm.trans h)
  rw [← ht]
  exact ⟨rfl, rfl⟩

/-- No transaction sees the pending words or changes them (log 1). -/
theorem exec_input {i : Instr} {s t : State} (h : exec i s = .next t) (q : List TWord) :
    exec i { s with input := q } = .next { t with input := q } := by
  by_cases hti : i = .tick
  · subst hti
    obtain rfl := Host.Outcome.next.inj h
    exact congrArg Host.Outcome.next (State.dot_update_input s.quiet q)
  by_cases hpo : i = .powerOn
  · subst hpo
    obtain rfl := Host.Outcome.next.inj h
    rfl
  obtain ⟨hh, hv⟩ := exec_beam hti hpo h
  have hre : exec i { s with input := q } = .next (t.reframe s.hpos s.vpos q) :=
    exec_reframe hti hpo h s.hpos s.vpos q
  rw [hre, ← hh, ← hv]
  rfl

theorem exec_keeps_input {i : Instr} {s t : State} (h : exec i s = .next t) : t.input = s.input := by
  have hself : exec i s = .next { t with input := s.input } := exec_input h s.input
  have ht : t = { t with input := s.input } := Host.Outcome.next.inj (h.symm.trans hself)
  rw [ht]

/-- Settles O34: a bus transaction runs alike on a state with the beam anywhere else. -/
theorem onlyTickAndPowerOnMoveTheBeam : Obligations.OnlyTickAndPowerOnMoveTheBeam := by
  intro i s hti hpo
  obtain ⟨t, ht⟩ := exec_next i s
  refine ⟨t, ht, exec_beam hti hpo ht, fun h v => ?_⟩
  have hreframe : t.reframe h v s.input = { t with hpos := h, vpos := v } := by
    rw [← exec_keeps_input ht]
    rfl
  rw [← hreframe]
  exact exec_reframe hti hpo ht h v s.input

/-! ## The snapshot (R64 of 10_state.md) -/

/-- Every transaction begins by forgetting what the one before returned and emitted. -/
theorem exec_quiet (i : Instr) (s : State) : exec i s.quiet = exec i s := by
  cases i <;> rfl

/-- A state is its snapshot, its parameters, its draw index, its pending words and its latest outputs. -/
theorem State.quiet_of_save_eq {s s' : State} (hsave : s.save = s'.save) (hdraws : s.draws = s'.draws)
    (hconfig : s.config = s'.config) : s'.quiet = { s.quiet with input := s'.input } := by
  simp only [State.save, Snapshot.mk.injEq] at hsave
  apply State.ext <;> simp [hsave, hdraws, hconfig]

theorem State.restore_save (s : State) : s.restore s.save = s := rfl

theorem State.save_restore (s : State) (n : Snapshot) : (s.restore n).save = n := rfl

/-- Settles O45: two states of one snapshot differ in pending words and in outputs, which no transaction sees. -/
theorem snapshotDeterminesBehaviour : Obligations.SnapshotDeterminesBehaviour := by
  refine ⟨fun i s s' hsave hdraws hconfig => ?_, fun s n => ⟨State.save_restore s n, State.restore_save s⟩⟩
  obtain ⟨t, ht⟩ := exec_next i s
  have ht' : exec i s' = .next { t with input := s'.input } := by
    rw [← exec_quiet i s', State.quiet_of_save_eq hsave hdraws hconfig]
    exact exec_input ((exec_quiet i s).trans ht) s'.input
  exact ⟨t, _, ht, ht', rfl, rfl, rfl, rfl⟩

end Sys2Proof.Machine

namespace Sys2Proof.Machine

/-! ## The tables (R80, R83 of 20_memory.md) -/

/-- A port's store changes a table byte only at the address it stores to, and then to the byte stored. -/
theorem State.eq_of_memRead_store_ne {s t : State} {j : Fin 8} {l l' : Loc} {v : Byte}
    (ht : t.memRead l' = ((s.quiet.setP j v).memWrite l v).memRead l') (hne : t.memRead l' ≠ s.memRead l') :
    t.memRead l' = v ∧ l' = l := by
  simp only [State.memRead_memWrite, State.memRead_setP, State.memRead_quiet] at ht
  split_ifs at ht with hl
  · exact ⟨ht, hl.1.symm⟩
  · exact absurd ht hne

/-- The reset operation changes a table byte only to 0. -/
theorem State.eq_zero_of_memRead_resetOp_ne {s : State} {l : Loc} (hne : s.resetOp.memRead l ≠ s.memRead l) :
    s.resetOp.memRead l = 0 := by
  rw [State.memRead_resetOp] at hne ⊢
  exact ite_eq_left_iff.mpr fun habsent => absurd (if_neg habsent) hne

/-- POWERON leaves the tables as the reset operation does. -/
theorem memRead_of_execPowerOn {s t : State} (h : execPowerOn s = .next t) (l : Loc) :
    t.memRead l = s.resetOp.memRead l := by
  obtain rfl := Host.Outcome.next.inj h
  refine State.memRead_congr ?_ ?_ ?_ ?_ ?_ ?_ l <;> rfl

/-- Settles O44, transaction by transaction: a port's store at its cursor, the clearing of reset and POWERON, and
nothing else. -/
theorem onlyTheseTransactionsChangeATable : Obligations.OnlyTheseTransactionsChangeATable := by
  intro i s t l h hne
  cases i with
  | outP0 v =>
    obtain rfl := Host.Outcome.next.inj h
    obtain ⟨hv, hl⟩ := State.eq_of_memRead_store_ne (State.memRead_pnStepWrite _ l) hne
    exact .inl ⟨v, hv, .inl ⟨rfl, hl⟩⟩
  | outP1 v =>
    obtain rfl := Host.Outcome.next.inj h
    obtain ⟨hv, hl⟩ := State.eq_of_memRead_store_ne (State.memRead_saAdvance _ l) hne
    exact .inl ⟨v, hv, .inr (.inl ⟨rfl, hl⟩)⟩
  | outP2 v =>
    obtain rfl := Host.Outcome.next.inj h
    obtain ⟨hv, hl⟩ := State.eq_of_memRead_store_ne (State.memRead_scAdvance _ l) hne
    exact .inl ⟨v, hv, .inr (.inr (.inl ⟨rfl, hl⟩))⟩
  | outP3 v =>
    obtain rfl := Host.Outcome.next.inj h
    obtain ⟨hv, hl⟩ := State.eq_of_memRead_store_ne (State.memRead_palStepWrite _ l) hne
    exact .inl ⟨v, hv, .inr (.inr (.inr ⟨rfl, hl⟩))⟩
  | outP7 v =>
    obtain rfl := Host.Outcome.next.inj h
    split_ifs at hne ⊢ with hv
    · exact .inr ⟨State.eq_zero_of_memRead_resetOp_ne (s := s.quiet) (by simpa using hne), .inr ⟨v, rfl, hv⟩⟩
    · exact absurd (by simp) hne
  | powerOn =>
    rw [memRead_of_execPowerOn h] at hne ⊢
    exact .inr ⟨State.eq_zero_of_memRead_resetOp_ne hne, .inl rfl⟩
  | _ =>
    obtain rfl := Host.Outcome.next.inj h
    exact absurd (by simp) hne

end Sys2Proof.Machine

/-! ## The words of each transaction (R100 to R106 of 30_encoding.md) -/

namespace Sys2Proof

theorem toNat_append_eq_add {m n : Nat} (x : BitVec m) (y : BitVec n) :
    (x ++ y).toNat = x.toNat * 2 ^ n + y.toNat := by
  rw [BitVec.toNat_append, ← Nat.shiftLeft_add_eq_or_of_lt y.isLt, Nat.shiftLeft_eq]

/-- The number of a word, from its four fields (R100). -/
theorem toNat_mkWord (h : BitVec 1) (d : Byte) (rw : BitVec 1) (a : BitVec 3) :
    (mkWord h d rw a).toNat = ((h.toNat * 2 ^ 8 + d.toNat) * 2 ^ 1 + rw.toNat) * 2 ^ 3 + a.toNat := by
  have hword : mkWord h d rw a = (h ++ d ++ rw ++ a : BitVec (1 + 8 + 1 + 3)) := rfl
  simp only [hword, toNat_append_eq_add]

theorem mkWord_inj {h h' : BitVec 1} {d d' : Byte} {rw rw' : BitVec 1} {a a' : BitVec 3} :
    mkWord h d rw a = mkWord h' d' rw' a' ↔ h = h' ∧ d = d' ∧ rw = rw' ∧ a = a' := by
  refine ⟨fun heq => ?_, fun ⟨hh, hd, hrw, ha⟩ => by rw [hh, hd, hrw, ha]⟩
  have hnat := congrArg BitVec.toNat heq
  rw [toNat_mkWord, toNat_mkWord] at hnat
  simp only [← BitVec.toNat_inj]
  omega

/-- Every word is its four fields put together (R100). -/
theorem exists_mkWord (w : TWord) : ∃ h d rw a, w = mkWord h d rw a := by
  refine ⟨w.extractLsb' 12 1, w.extractLsb' 4 8, w.extractLsb' 3 1, w.extractLsb' 0 3, BitVec.eq_of_toNat_eq ?_⟩
  rw [toNat_mkWord]
  simp only [BitVec.extractLsb'_toNat, Nat.shiftRight_eq_div_pow]
  omega

/-- The mask of a write leaves the whole word (R103). -/
theorem and_writeMask (w : TWord) : w &&& 0x1FFF = w := BitVec.and_allOnes

/-- The mask of every row (R103) leaves all fields but the data byte. -/
theorem mkWord_and_rowMask (h : BitVec 1) (d : Byte) (rw : BitVec 1) (a : BitVec 3) :
    mkWord h d rw a &&& 0x100F = mkWord h 0 rw a := by
  apply BitVec.eq_of_getLsbD_eq
  intro i hi
  rw [BitVec.getLsbD_and, getLsbD_mkWord, getLsbD_mkWord]
  interval_cases i <;> simp

/-- The code of a word is RW above the port number (R100). -/
theorem wordCode_mkWord (h : BitVec 1) (d : Byte) (rw : BitVec 1) (a : BitVec 3) :
    wordCode (mkWord h d rw a) = (rw ++ a : BitVec (1 + 3)) := by
  apply BitVec.eq_of_toNat_eq
  rw [toNat_append_eq_add, wordCode, BitVec.extractLsb'_toNat, toNat_mkWord]
  omega

/-! ### The decoder, kind by kind -/

theorem decode_action {w : TWord} (h : w.getLsbD 12 = true) :
    decode w = if wordCode w = 0 then .ok .tick else if wordCode w = 1 then .ok .powerOn
      else .error (.reservedAction (wordCode w)) := if_pos h

/-- No bus transaction is rejected (R104). -/
theorem decode_bus_ok {w : TWord} (h : w.getLsbD 12 = false) : ∃ i, decode w = .ok i := by
  rw [decode, h]
  cases w.getLsbD 3 <;> exact ⟨_, rfl⟩

/-- A word is rejected exactly when it is a host action whose code is neither that of TICK nor that of POWERON (R105). -/
theorem decode_eq_error_iff (w : TWord) (code : BitVec 4) :
    decode w = .error (.reservedAction code) ↔ w.getLsbD 12 = true ∧ wordCode w = code ∧ 2 ≤ code.toNat := by
  rcases h : w.getLsbD 12 with _ | _
  · obtain ⟨i, hi⟩ := decode_bus_ok h
    simp [hi]
  · rw [decode_action h]
    split_ifs with h0 h1
    · have hcode : (wordCode w).toNat ≤ 1 := by simp [h0]
      simpa using fun heq : wordCode w = code => heq ▸ hcode
    · have hcode : (wordCode w).toNat ≤ 1 := by simp [h1]
      simpa using fun heq : wordCode w = code => heq ▸ hcode
    · have hcode : 2 ≤ (wordCode w).toNat := by bv_omega
      simpa using fun heq : wordCode w = code => heq ▸ hcode

theorem decode_mkWord_tick (d : Byte) : decode (mkWord 1 d 0 0) = .ok .tick := by
  have haction : (mkWord 1 d 0 0).getLsbD 12 = true := getLsbD_mkWord ..
  have hcode : wordCode (mkWord 1 d 0 0) = 0 := wordCode_mkWord ..
  rw [decode_action haction, if_pos hcode]

theorem decode_mkWord_powerOn (d : Byte) : decode (mkWord 1 d 0 1) = .ok .powerOn := by
  have haction : (mkWord 1 d 0 1).getLsbD 12 = true := getLsbD_mkWord ..
  have hcode : wordCode (mkWord 1 d 0 1) = 1 := wordCode_mkWord ..
  rw [decode_action haction, hcode]
  rfl

/-- The code `T[3:0]` fixes RW and the port number (R100). -/
theorem wordCode_mkWord_eq_iff (h : BitVec 1) (d : Byte) (rw rw' : BitVec 1) (a a' : BitVec 3) :
    wordCode (mkWord h d rw a) = (rw' ++ a' : BitVec (1 + 3)) ↔ rw = rw' ∧ a = a' := by
  simp only [wordCode_mkWord, ← BitVec.toNat_inj, toNat_append_eq_add]
  omega

/-- All the words that spell a transaction, with the transaction each spells (R104, R106). -/
theorem decode_ok_cases {w : TWord} {i : Instr} (hw : decode w = .ok i) :
    (∃ d port, w = mkWord 0 d 0 port ∧ i = decodeWrite port.toFin d) ∨
    (∃ d port, w = mkWord 0 d 1 port ∧ i = decodeRead port.toFin) ∨
    (∃ d, w = mkWord 1 d 0 0 ∧ i = .tick) ∨ (∃ d, w = mkWord 1 d 0 1 ∧ i = .powerOn) := by
  obtain ⟨h, d, rw, a, rfl⟩ := exists_mkWord w
  obtain rfl | rfl := h.eq_zero_or_eq_one
  · obtain rfl | rfl := rw.eq_zero_or_eq_one
    · exact .inl ⟨d, a, rfl, Except.ok.inj (hw.symm.trans (decode_mkWord_write d a))⟩
    · exact .inr (.inl ⟨d, a, rfl, Except.ok.inj (hw.symm.trans (decode_mkWord_read d a))⟩)
  · rw [decode_action (getLsbD_mkWord ..)] at hw
    split_ifs at hw with h0 h1
    · obtain ⟨rfl, rfl⟩ := (wordCode_mkWord_eq_iff 1 d rw 0 a 0).1 h0
      exact .inr (.inr (.inl ⟨d, rfl, (Except.ok.inj hw).symm⟩))
    · obtain ⟨rfl, rfl⟩ := (wordCode_mkWord_eq_iff 1 d rw 0 a 1).1 h1
      exact .inr (.inr (.inr ⟨d, rfl, (Except.ok.inj hw).symm⟩))

/-! ### The encoder, kind by kind -/

/-- The word of a write (R103). -/
theorem encode_decodeWrite (port : BitVec 3) (v : Byte) : encode (decodeWrite port.toFin v) = mkWord 0 v 0 port := by
  obtain ⟨port⟩ := port
  fin_cases port <;> rfl

/-- The word of a read, its ignored bits 0 (R103, R106). -/
theorem encode_decodeRead (port : BitVec 3) : encode (decodeRead port.toFin) = mkWord 0 0 1 port := by
  obtain ⟨port⟩ := port
  fin_cases port <;> rfl

theorem careMask_decodeWrite (port : Fin 8) (v : Byte) : careMask (decodeWrite port v) = 0x1FFF := by
  fin_cases port <;> rfl

theorem careMask_decodeRead (port : Fin 8) : careMask (decodeRead port) = 0x100F := by
  fin_cases port <;> rfl

/-- A word that agrees with a transaction's word on the bits that are not ignored decodes to that transaction (R106). -/
theorem decode_of_and_careMask {w : TWord} {i : Instr} (hw : w &&& careMask i = encode i) : decode w = .ok i := by
  obtain ⟨h, d, rw, a, rfl⟩ := exists_mkWord w
  obtain ⟨v, port, -, rfl⟩ | ⟨-, port, -, rfl⟩ | ⟨-, -, rfl⟩ | ⟨-, -, rfl⟩ := decode_ok_cases (decode_encode i)
  · rw [careMask_decodeWrite, and_writeMask] at hw
    rw [hw]
    exact decode_encode _
  · rw [careMask_decodeRead, mkWord_and_rowMask, encode_decodeRead] at hw
    obtain ⟨rfl, -, rfl, rfl⟩ := mkWord_inj.1 hw
    exact decode_mkWord_read d a
  · obtain ⟨rfl, -, rfl, rfl⟩ := mkWord_inj.1 ((mkWord_and_rowMask h d rw a).symm.trans hw)
    exact decode_mkWord_tick d
  · obtain ⟨rfl, -, rfl, rfl⟩ := mkWord_inj.1 ((mkWord_and_rowMask h d rw a).symm.trans hw)
    exact decode_mkWord_powerOn d

/-- A word that decodes to a transaction agrees with its word on the bits that are not ignored (R103, R106). -/
theorem and_careMask_of_decode {w : TWord} {i : Instr} (hw : decode w = .ok i) : w &&& careMask i = encode i := by
  obtain ⟨d, port, rfl, rfl⟩ | ⟨d, port, rfl, rfl⟩ | ⟨d, rfl, rfl⟩ | ⟨d, rfl, rfl⟩ := decode_ok_cases hw
  · rw [careMask_decodeWrite, encode_decodeWrite, and_writeMask]
  · rw [careMask_decodeRead, encode_decodeRead, mkWord_and_rowMask]
  · exact mkWord_and_rowMask 1 d 0 0
  · exact mkWord_and_rowMask 1 d 0 1

/-- Settles O1: the decoder gives back each transaction, and the words of a transaction are those that differ from its
own in ignored bits only. -/
theorem decodeEncodeRoundTrip : Obligations.DecodeEncodeRoundTrip :=
  ⟨fun i _ => decode_encode i, fun _ _ => ⟨and_careMask_of_decode, decode_of_and_careMask⟩⟩

/-- Settles O2, by the decoder's rejections and the step's equation for a rejected word. -/
theorem reservedActionsAreRefused : Obligations.ReservedActionsAreRefused :=
  fun w code => ⟨decode_eq_error_iff w code, fun _ _ hin hw => Machine.step_of_decode_error hin hw⟩

/-! ## Assembler lines (R108 of 30_encoding.md) -/

theorem Asm.instr_of_wf_false {a : Asm} (h : a.wf = false) : a.instr = none := by simp [Asm.instr, h]

theorem Asm.wf_of_instr {a : Asm} {i : Instr} (h : a.instr = some i) : a.wf = true := by
  by_contra hwf
  simp [Asm.instr_of_wf_false (Bool.eq_false_iff.2 hwf)] at h

theorem Asm.instr_out {n v : Nat} (hn : n < 8) (hv : v < 256) :
    (Asm.out n v).instr = some (decodeWrite (Fin.ofNat 8 n) (BitVec.ofNat 8 v)) := by
  simp [Asm.instr, Asm.wf, hn, hv]

theorem Asm.instr_inp {n : Nat} (hn : n < 8) : (Asm.inp n).instr = some (decodeRead (Fin.ofNat 8 n)) := by
  simp [Asm.instr, Asm.wf, hn]

theorem Asm.ofInstr_decodeWrite (port : Fin 8) (v : Byte) : Asm.ofInstr (decodeWrite port v) = .out port v.toNat := by
  fin_cases port <;> rfl

theorem Asm.ofInstr_decodeRead (port : Fin 8) : Asm.ofInstr (decodeRead port) = .inp port := by
  fin_cases port <;> rfl

theorem Asm.word_out {n : Nat} (v : Nat) (hn : n < 8) : (Asm.out n v).word = 16 * v + n := by
  rw [Asm.word, ← Nat.shiftLeft_add_eq_or_of_lt (by omega), Nat.shiftLeft_eq, Nat.mul_comm]

theorem Asm.word_inp {n : Nat} (hn : n < 8) : (Asm.inp n).word = 8 + n :=
  (Nat.two_pow_add_eq_or_of_lt (i := 3) hn 1).symm

/-- A well-formed line is some transaction, and its word is that transaction's own. -/
theorem Asm.exists_instr {a : Asm} (h : a.wf = true) : ∃ i, a.instr = some i ∧ (encode i).toNat = a.word := by
  cases a with
  | out n v =>
    obtain ⟨hn, hv⟩ : n < 8 ∧ v < 256 := by simpa [Asm.wf] using h
    refine ⟨_, Asm.instr_out hn hv, ?_⟩
    have hword := encode_decodeWrite (BitVec.ofNat 3 n) (BitVec.ofNat 8 v)
    rw [Asm.word_out v hn]
    refine (congrArg BitVec.toNat hword).trans ?_
    simp only [toNat_mkWord, BitVec.ofNat_eq_ofNat, BitVec.toNat_ofNat]
    omega
  | inp n =>
    have hn : n < 8 := by simpa [Asm.wf] using h
    refine ⟨_, Asm.instr_inp hn, ?_⟩
    have hword := encode_decodeRead (BitVec.ofNat 3 n)
    rw [Asm.word_inp hn]
    refine (congrArg BitVec.toNat hword).trans ?_
    simp only [toNat_mkWord, BitVec.ofNat_eq_ofNat, BitVec.toNat_ofNat]
    omega
  | tick | powerOn => exact ⟨_, rfl, rfl⟩

/-- The line of a transaction reads back as it. -/
theorem Asm.instr_ofInstr (i : Instr) : (Asm.ofInstr i).instr = some i := by
  obtain ⟨v, port, -, rfl⟩ | ⟨-, port, -, rfl⟩ | ⟨-, -, rfl⟩ | ⟨-, -, rfl⟩ := decode_ok_cases (decode_encode i)
  · rw [Asm.ofInstr_decodeWrite, Asm.instr_out port.toFin.isLt v.isLt, Fin.ofNat_val_eq_self, BitVec.ofNat_toNat,
      BitVec.setWidth_eq]
  · rw [Asm.ofInstr_decodeRead, Asm.instr_inp port.toFin.isLt, Fin.ofNat_val_eq_self]
  · rfl
  · rfl

/-- Settles O5, line by line. -/
theorem assemblerLinesEncode : Obligations.AssemblerLinesEncode :=
  ⟨fun _ => Asm.exists_instr, Asm.instr_ofInstr, fun _ => Asm.instr_of_wf_false⟩

/-! ## Pseudo-instructions (R109 of 30_encoding.md) -/

theorem mapM_eq_some_iff {α β : Type} (f : α → Option β) (l : List α) (l' : List β) :
    l.mapM f = some l' ↔ l.map f = l'.map some := by
  induction l generalizing l' with
  | nil => cases l' <;> simp
  | cons x xs ih =>
    rw [List.mapM_cons]
    cases hx : f x with
    | none => cases l' <;> simp [hx]
    | some y =>
      cases hxs : xs.mapM f with
      | none => cases l' <;> simp [hx, ← ih, hxs]
      | some ys => cases l' <;> simp [hx, ← ih, hxs]

/-- The transactions of a pseudo-instruction are those of its lines. -/
theorem Pseudo.instrs_eq_some_iff (p : Pseudo) (is : List Instr) :
    p.instrs = some is ↔ p.expand.map Asm.instr = is.map some := mapM_eq_some_iff ..

/-- A pseudo-instruction that is some transactions has well-formed lines only. -/
theorem Pseudo.lines_wf {p : Pseudo} {is : List Instr} (h : p.instrs = some is) : ∀ a ∈ p.expand, a.wf = true := by
  intro a ha
  have hmem : a.instr ∈ is.map some := (p.instrs_eq_some_iff is).1 h ▸ List.mem_map_of_mem ha
  obtain ⟨_, -, hi⟩ := List.mem_map.1 hmem
  exact Asm.wf_of_instr hi.symm

/-- The byte a register select writes: the two flags above the address (R23 of 10_state.md). -/
theorem selectByte_eq {a ari : Nat} (awi : Nat) (ha : a < 64) (hari : ari < 2) :
    awi <<< 7 ||| ari <<< 6 ||| a = 128 * awi + 64 * ari + a := by
  have hflag : ari <<< 6 < 2 ^ 7 := by omega
  have hflags : awi <<< 7 + ari <<< 6 = (2 * awi + ari) <<< 6 := by omega
  rw [← Nat.shiftLeft_add_eq_or_of_lt hflag, hflags, ← Nat.shiftLeft_add_eq_or_of_lt ha]
  omega

theorem Asm.instr_regSel {a : Nat} (ha : a < 256) : (Asm.out 5 a).instr = some (.outP5 (BitVec.ofNat 8 a)) :=
  Asm.instr_out (by decide) ha
theorem Asm.instr_regData {v : Nat} (hv : v < 256) : (Asm.out 4 v).instr = some (.outP4 (BitVec.ofNat 8 v)) :=
  Asm.instr_out (by decide) hv
theorem Asm.instr_palData {v : Nat} (hv : v < 256) : (Asm.out 3 v).instr = some (.outP3 (BitVec.ofNat 8 v)) :=
  Asm.instr_out (by decide) hv

theorem map_instr_expandWreg {a v : Nat} (ha : a < 64) (hv : v < 256) :
    (expandWreg a v).map Asm.instr = [some (.outP5 (BitVec.ofNat 8 a)), some (.outP4 (BitVec.ofNat 8 v))] := by
  rw [expandWreg, List.map_cons, Asm.instr_regSel (by omega), List.map_singleton, Asm.instr_regData hv]

theorem Pseudo.instrs_wreg {a v : Nat} (ha : a < 64) (hv : v < 256) :
    (Pseudo.wreg a v).instrs = some [.outP5 (BitVec.ofNat 8 a), .outP4 (BitVec.ofNat 8 v)] :=
  (Pseudo.instrs_eq_some_iff ..).2 (map_instr_expandWreg ha hv)

theorem Pseudo.instrs_rreg {a : Nat} (ha : a < 64) :
    (Pseudo.rreg a).instrs = some [.outP5 (BitVec.ofNat 8 a), .inP4] := by
  rw [Pseudo.instrs_eq_some_iff, Pseudo.expand, List.map_cons, Asm.instr_regSel (by omega)]
  rfl

theorem Pseudo.instrs_selr {a ari awi : Nat} (ha : a < 64) (hari : ari < 2) (hawi : awi < 2) :
    (Pseudo.selr a ari awi).instrs = some [.outP5 (BitVec.ofNat 8 (128 * awi + 64 * ari + a))] := by
  rw [Pseudo.instrs_eq_some_iff, Pseudo.expand, selectByte_eq awi ha hari, List.map_singleton,
    Asm.instr_regSel (by omega)]
  rfl

theorem Pseudo.instrs_wregs {a : Nat} {vs : List Nat} (ha : a < 64) (hvs : ∀ v ∈ vs, v < 256) :
    (Pseudo.wregs a vs).instrs =
      some (.outP5 (BitVec.ofNat 8 (128 + a)) :: vs.map fun v => .outP4 (BitVec.ofNat 8 v)) := by
  have hbyte : 0x80 ||| a = 128 + a := (Nat.two_pow_add_eq_or_of_lt (i := 7) (by omega) 1).symm
  have hdata : (vs.map (Asm.out 4)).map Asm.instr = (vs.map fun v => .outP4 (BitVec.ofNat 8 v)).map some := by
    rw [List.map_map, List.map_map]
    exact List.map_congr_left fun v hv => Asm.instr_regData (hvs v hv)
  rw [Pseudo.instrs_eq_some_iff, Pseudo.expand, hbyte, List.map_cons, hdata, Asm.instr_regSel (by omega), List.map_cons]

theorem Pseudo.instrs_setpn {pl row col : Nat} (hpl : pl < 2) (hrow : row < 64) (hcol : col < 64) :
    (Pseudo.setpn pl row col).instrs =
      some [.outP5 0, .outP4 (BitVec.ofNat 8 (64 * pl + row)), .outP5 1, .outP4 (BitVec.ofNat 8 col)] := by
  have hbyte : pl <<< 6 ||| row = 64 * pl + row := by
    rw [← Nat.shiftLeft_add_eq_or_of_lt hrow, Nat.shiftLeft_eq, Nat.mul_comm]
  rw [Pseudo.instrs_eq_some_iff, Pseudo.expand, hbyte, List.map_append, map_instr_expandWreg (by decide) (by omega),
    map_instr_expandWreg (by decide) (by omega)]
  rfl

theorem Pseudo.instrs_setpal {i r g b : Nat} (hi : i < 256) (hr : r < 256) (hg : g < 256) (hb : b < 256) :
    (Pseudo.setpal i r g b).instrs =
      some [.outP5 5, .outP4 (BitVec.ofNat 8 i), .outP3 (BitVec.ofNat 8 r), .outP3 (BitVec.ofNat 8 g),
        .outP3 (BitVec.ofNat 8 b)] := by
  rw [Pseudo.instrs_eq_some_iff, Pseudo.expand, List.map_append, map_instr_expandWreg (by decide) hi, List.map_cons,
    List.map_cons, List.map_singleton, Asm.instr_palData hr, Asm.instr_palData hg, Asm.instr_palData hb]
  rfl

theorem Pseudo.instrs_ack {m : Nat} (hm : m < 256) : (Pseudo.ack m).instrs = some [.outP6 (BitVec.ofNat 8 m)] :=
  (Pseudo.instrs_eq_some_iff ..).2 (congrArg (fun x => [x]) (Asm.instr_out (by decide) hm))

theorem Pseudo.instrs_tick (n : Nat) : (Pseudo.tick n).instrs = some (List.replicate n .tick) := by
  rw [Pseudo.instrs_eq_some_iff, Pseudo.expand, List.map_replicate, List.map_replicate]
  rfl

/-- Settles O6, row by row of R109: the transactions are those of the lines, and lines that are transactions are well
formed. -/
theorem pseudoExpansionsAreWellFormed : Obligations.PseudoExpansionsAreWellFormed := by
  intro p hp
  suffices h : p.instrs = some _ from ⟨Pseudo.lines_wf h, h⟩
  cases p with
  | selr a ari awi =>
    obtain ⟨⟨ha, hari⟩, hawi⟩ : (a < 64 ∧ ari < 2) ∧ awi < 2 := by simpa [Pseudo.wf] using hp
    exact Pseudo.instrs_selr ha hari hawi
  | wreg a v =>
    obtain ⟨ha, hv⟩ : a < 64 ∧ v < 256 := by simpa [Pseudo.wf] using hp
    exact Pseudo.instrs_wreg ha hv
  | wregs a vs =>
    obtain ⟨ha, hvs⟩ : a < 64 ∧ ∀ v ∈ vs, v < 256 := by simpa [Pseudo.wf] using hp
    exact Pseudo.instrs_wregs ha hvs
  | rreg a => exact Pseudo.instrs_rreg (of_decide_eq_true hp)
  | setpn pl row col =>
    obtain ⟨⟨hpl, hrow⟩, hcol⟩ : (pl < 2 ∧ row < 64) ∧ col < 64 := by simpa [Pseudo.wf] using hp
    exact Pseudo.instrs_setpn hpl hrow hcol
  | setpal i r g b =>
    obtain ⟨⟨⟨hi, hr⟩, hg⟩, hb⟩ : ((i < 256 ∧ r < 256) ∧ g < 256) ∧ b < 256 := by simpa [Pseudo.wf] using hp
    exact Pseudo.instrs_setpal hi hr hg hb
  | ack m => exact Pseudo.instrs_ack (of_decide_eq_true hp)
  | reset => rfl
  | tick n => exact Pseudo.instrs_tick n

end Sys2Proof

namespace Sys2Proof.Machine

/-! ## A register written and read back (R109 of 30_encoding.md, R122 and R123 of 40_register_port.md) -/

theorem execAll_cons {i : Instr} {s t : State} (h : exec i s = .next t) (is : List Instr) :
    execAll (i :: is) s = execAll is t := by simp [execAll, h]

theorem low6_setWidth (a : BitVec 6) : low6 (a.setWidth 8) = a := by
  apply BitVec.eq_of_toNat_eq
  simp only [low6, BitVec.extractLsb'_toNat, BitVec.toNat_setWidth]
  omega

theorem bit_setWidth_of_le (a : BitVec 6) {i : Nat} (hi : 6 ≤ i) : bit (a.setWidth 8) i = false := by
  simp [bit, BitVec.getLsbD_of_ge a i hi]

/-- With P5 = a and both flags 0, a data write stores the byte in R[a] and leaves P5 (R122). -/
theorem exec_outP4_of_selected {s : State} {a : BitVec 6} (h : s.P 5 = a.setWidth 8) (v : Byte) :
    exec (.outP4 v) s = .next (((s.quiet.setP 4 v).setR a.toFin v).restart a.toFin) := by
  have haddr : s.addr = a := by rw [State.addr, h, low6_setWidth]
  have hawi : s.awi = false := by rw [State.awi, h, bit_setWidth_of_le a (by decide)]
  simp only [exec, execOutP4, haddr, hawi]
  rfl

/-- With P5 = a and both flags 0, a data read returns R[a] and changes nothing else (R123). -/
theorem exec_inP4_of_selected {s : State} {a : BitVec 6} (h : s.P 5 = a.setWidth 8) :
    exec .inP4 s = .next (s.quiet.reply (s.R a.toFin)) := by
  have haddr : s.addr = a := by rw [State.addr, h, low6_setWidth]
  have hari : s.ari = false := by rw [State.ari, h, bit_setWidth_of_le a (by decide)]
  simp only [exec, execInP4, haddr, hari]
  rfl

theorem exec_outP5 (v : Byte) (s : State) : exec (.outP5 v) s = .next (s.quiet.setP 5 v) := rfl

/-- `WREG a, v` at the machine (R109): a register select, then a data write at the selected register. -/
theorem execAll_wreg (a : BitVec 6) (v : Byte) (s : State) :
    ∃ t, execAll [.outP5 (a.setWidth 8), .outP4 v] s = .next t ∧ t.R a.toFin = v ∧ t.P 5 = a.setWidth 8 ∧
      SameRegs [a.toFin] s t := by
  have hsel : (s.quiet.setP 5 (a.setWidth 8)).P 5 = a.setWidth 8 := by simp
  refine ⟨_, (execAll_cons (exec_outP5 ..) _).trans (execAll_cons (exec_outP4_of_selected hsel v) _), ?_, ?_, ?_⟩
  · simp
  · simp
  · intro i hi
    have hne : a.toFin ≠ i := fun heq => hi (heq ▸ List.mem_singleton_self _)
    simp [hne]

/-- `RREG a` at the machine (R109): a register select, then a data read of the selected register. -/
theorem execAll_rreg (a : BitVec 6) (s : State) :
    ∃ u, execAll [.outP5 (a.setWidth 8), .inP4] s = .next u ∧ u.outByte = some (s.R a.toFin) ∧ SameRegs [] s u := by
  have hsel : (s.quiet.setP 5 (a.setWidth 8)).P 5 = a.setWidth 8 := by simp
  exact ⟨_, (execAll_cons (exec_outP5 ..) _).trans (execAll_cons (exec_inP4_of_selected hsel) _), rfl, fun _ _ => rfl⟩

/-- Settles O7: the write leaves v in R[a], and the read, which selects the same register, finds it there. -/
theorem writeRegisterThenReadReturnsByte : Obligations.WriteRegisterThenReadReturnsByte := by
  intro a v s
  have hwr : (Pseudo.wreg a.toNat v.toNat).instrs = some [.outP5 (a.setWidth 8), .outP4 v] := by
    simpa using Pseudo.instrs_wreg a.isLt v.isLt
  have hrd : (Pseudo.rreg a.toNat).instrs = some [.outP5 (a.setWidth 8), .inP4] := by
    simpa using Pseudo.instrs_rreg a.isLt
  obtain ⟨t, ht, hR, hP, hkeep⟩ := execAll_wreg a v s
  obtain ⟨u, hu, hout, hkeep'⟩ := execAll_rreg a t
  exact ⟨_, _, t, u, hwr, hrd, ht, hR, hP, hkeep, hu, hout.trans (congrArg some hR), hkeep'⟩

end Sys2Proof.Machine

namespace Sys2Proof.Machine

/-! ## The register select and register data ports (R120 to R124 of 40_register_port.md) -/

/-- The three fields of P5 after an access: ADDR is one further modulo 64 if the flag of its direction is set, and the
flags stay (R122 to R124). The access reached u with the P5 of s. -/
theorem State.fields_addrAdvance {s u : State} (h : u.P 5 = s.P 5) (f : Bool) :
    (u.addrAdvance f).addr.toNat = (if f then (s.addr.toNat + 1) % 64 else s.addr.toNat) ∧
      (u.addrAdvance f).ari = s.ari ∧ (u.addrAdvance f).awi = s.awi := by
  simp only [State.addr, State.ari, State.awi, State.P_addrAdvance, h, and_true]
  cases f with
  | false => simp
  | true => simp [bit_putLow6, BitVec.toNat_add]

/-- An access's advance leaves every latch but P5. -/
theorem State.P_addrAdvance_of_ne (s : State) (f : Bool) {j : Fin 8} (hj : j ≠ 5) : (s.addrAdvance f).P j = s.P j := by
  simp [State.P_addrAdvance, hj]

/-- A reply of one byte changes no state of the block. -/
theorem State.frame_of_eq_reply {s t : State} {r : Byte} (h : t = s.quiet.reply r) :
    Replies r t ∧ SamePorts [] s t ∧ SameRegs [] s t ∧ SameTables [] s t ∧ SamePhases s t ∧ SameSubs s t ∧
      SameBeam s t ∧ SameInput s t := by
  subst h
  exact ⟨⟨rfl, rfl⟩, fun _ _ => rfl, fun _ _ => rfl, fun l _ => by simp, ⟨rfl, rfl⟩, ⟨rfl, rfl⟩, ⟨rfl, rfl⟩,
    ⟨rfl, rfl⟩⟩

/-- A write of R0 or R1 restarts both phases (R122). -/
theorem State.phases_restart {a : BitVec 6} (h : a = 0 ∨ a = 1) (s : State) :
    (s.restart a.toFin).phR = 0 ∧ (s.restart a.toFin).phW = 0 := by
  obtain rfl | rfl := h <;> exact ⟨rfl, rfl⟩

/-- A write of any other register leaves both phases (R122). -/
theorem State.phases_restart_of_ne {a : BitVec 6} (h0 : a ≠ 0) (h1 : a ≠ 1) (s : State) :
    (s.restart a.toFin).phR = s.phR ∧ (s.restart a.toFin).phW = s.phW := by
  have h : ¬(a.toFin = 0 ∨ a.toFin = 1) :=
    not_or.2 ⟨fun h => h0 (BitVec.eq_of_toFin_eq h), fun h => h1 (BitVec.eq_of_toFin_eq h)⟩
  exact ⟨(s.phR_restart _).trans (if_neg h), (s.phW_restart _).trans (if_neg h)⟩

/-- A write of R5 restarts both sub-counters (R122). -/
theorem State.subs_restart {a : BitVec 6} (h : a = 5) (s : State) :
    (s.restart a.toFin).subR = 0 ∧ (s.restart a.toFin).subW = 0 := by
  subst h
  exact ⟨rfl, rfl⟩

/-- A write of a register other than R5 leaves both sub-counters (R122). -/
theorem State.subs_restart_of_ne {a : BitVec 6} (h5 : a ≠ 5) (s : State) :
    (s.restart a.toFin).subR = s.subR ∧ (s.restart a.toFin).subW = s.subW := by
  have h : a.toFin ≠ 5 := fun h => h5 (BitVec.eq_of_toFin_eq h)
  exact ⟨(s.subR_restart _).trans (if_neg h), (s.subW_restart _).trans (if_neg h)⟩

theorem exec_outP4 (v : Byte) (s : State) :
    exec (.outP4 v) s =
      .next ((((s.quiet.setP 4 v).setR s.addr.toFin v).restart s.addr.toFin).addrAdvance s.awi) := rfl

theorem exec_inP4 (s : State) : exec .inP4 s = .next ((s.quiet.reply (s.R s.addr.toFin)).addrAdvance s.ari) := rfl
theorem exec_inP5 (s : State) : exec .inP5 s = .next (s.quiet.reply (s.P 5)) := rfl
theorem exec_inP6 (s : State) : exec .inP6 s = .next (s.quiet.reply (s.P 6)) := rfl
theorem exec_inP7 (s : State) : exec .inP7 s = .next (s.quiet.reply (s.P 7)) := rfl

/-- Settles O14: the transaction is the store to P5. -/
theorem registerSelectWriteSetsTheLatch : Obligations.RegisterSelectWriteSetsTheLatch := by
  intro v s
  have hP : (s.quiet.setP 5 v).P 5 = v := by simp
  refine ⟨_, exec_outP5 v s, hP, congrArg low6 hP, congrArg (bit · 6) hP, congrArg (bit · 7) hP, ?ports, fun _ _ => rfl,
    fun l _ => by simp, ⟨rfl, rfl⟩, ⟨rfl, rfl⟩, ⟨rfl, rfl⟩, ⟨rfl, rfl⟩, ⟨rfl, rfl⟩⟩
  case ports =>
    intro j hj
    simp [(List.ne_of_not_mem_cons hj).symm]

/-- Settles O15: each of the three reads is a reply of its latch, and legal latches are those with the bits at 0. -/
theorem latchReadsHaveNoSideEffect : Obligations.LatchReadsHaveNoSideEffect := by
  intro s
  refine ⟨?reads, s.latchesOk_iff.1⟩
  case reads =>
    simp only [List.forall_mem_cons, List.not_mem_nil, false_imp_iff, implies_true, and_true]
    exact ⟨⟨_, exec_inP5 s, State.frame_of_eq_reply rfl⟩, ⟨_, exec_inP6 s, State.frame_of_eq_reply rfl⟩,
      ⟨_, exec_inP7 s, State.frame_of_eq_reply rfl⟩⟩

/-- Settles O16: R[a] by the store, the phases and sub-counters by the restart, and P5 by the advance. -/
theorem registerDataWriteEffect : Obligations.RegisterDataWriteEffect := by
  intro v s
  have hP : (((s.quiet.setP 4 v).setR s.addr.toFin v).restart s.addr.toFin).P 5 = s.P 5 := by simp
  obtain ⟨haddr, hari, hawi⟩ := State.fields_addrAdvance hP s.awi
  refine ⟨_, exec_outP4 v s, ?reg, ?regs, ?latch, ?ports, haddr, hari, hawi, ?restartPhases, ?keepPhases, ?restartSubs,
    ?keepSubs, fun l _ => by simp, by simp [SameBeam], by simp [SameInput], by simp [Silent]⟩
  case reg => simp
  case regs =>
    intro i hi
    simp [(List.ne_of_not_mem_cons hi).symm]
  case latch => simp [State.P_addrAdvance_of_ne]
  case ports =>
    intro j hj
    obtain ⟨h4, h5⟩ : j ≠ 4 ∧ j ≠ 5 := by simpa using hj
    simp [State.P_addrAdvance_of_ne _ _ h5, h4.symm]
  case restartPhases => exact fun h => by simp [State.phases_restart h]
  case keepPhases => exact fun h0 h1 => by simp [SamePhases, State.phases_restart_of_ne h0 h1]
  case restartSubs => exact fun h => by simp [State.subs_restart h]
  case keepSubs => exact fun h => by simp [SameSubs, State.subs_restart_of_ne h]

/-- Settles O17: the read is a reply of R[a], which keeps the block, and then the advance, which moves P5 only. -/
theorem registerDataReadEffect : Obligations.RegisterDataReadEffect := by
  intro s
  obtain ⟨haddr, hari, hawi⟩ :=
    State.fields_addrAdvance (s := s) (u := s.quiet.reply (s.R s.addr.toFin)) rfl s.ari
  refine ⟨_, exec_inP4 s, by simp [Replies], ?ports, haddr, hari, hawi, fun i _ => by simp, fun l _ => by simp,
    by simp [SamePhases], by simp [SameSubs], by simp [SameBeam], by simp [SameInput]⟩
  case ports =>
    intro j hj
    simp [State.P_addrAdvance_of_ne _ _ (List.ne_of_not_mem_cons hj)]

end Sys2Proof.Machine

namespace Sys2Proof.Machine

/-! ## The pattern-name cursor (R131, R132 of 41_data_ports.md) -/

/-- The plane, row and column of the cursor as parts of R0 and R1 (R33, R34). -/
theorem pnb_eq_R (s : State) : pnb s.regs = bit (s.R 0) 6 := rfl
theorem pny_eq_R (s : State) : pny s.regs = low6 (s.R 0) := rfl
theorem pnx_eq_R (s : State) : pnx s.regs = low6 (s.R 1) := rfl

@[simp] theorem State.R_setPnb (s : State) (b : Bool) (i : Fin 64) :
    (s.setPnb b).R i = if 0 = i then putBit (s.R 0) 6 b else s.R i := State.R_setR s 0 i _
@[simp] theorem State.R_setPny (s : State) (y : BitVec 6) (i : Fin 64) :
    (s.setPny y).R i = if 0 = i then putLow6 (s.R 0) y else s.R i := State.R_setR s 0 i _
@[simp] theorem State.R_setPnx (s : State) (x : BitVec 6) (i : Fin 64) :
    (s.setPnx x).R i = if 1 = i then putLow6 (s.R 1) x else s.R i := State.R_setR s 1 i _

@[simp] theorem State.pnb_setPnb (s : State) (b : Bool) : pnb (s.setPnb b).regs = b := by simp [pnb_eq_R]
@[simp] theorem State.pny_setPnb (s : State) (b : Bool) : pny (s.setPnb b).regs = pny s.regs := by simp [pny_eq_R]
@[simp] theorem State.pnx_setPnb (s : State) (b : Bool) : pnx (s.setPnb b).regs = pnx s.regs := by simp [pnx_eq_R]
@[simp] theorem State.pnb_setPny (s : State) (y : BitVec 6) : pnb (s.setPny y).regs = pnb s.regs := by
  simp [pnb_eq_R, bit_putLow6]
@[simp] theorem State.pny_setPny (s : State) (y : BitVec 6) : pny (s.setPny y).regs = y := by simp [pny_eq_R]
@[simp] theorem State.pnx_setPny (s : State) (y : BitVec 6) : pnx (s.setPny y).regs = pnx s.regs := by simp [pnx_eq_R]
@[simp] theorem State.pnb_setPnx (s : State) (x : BitVec 6) : pnb (s.setPnx x).regs = pnb s.regs := by simp [pnb_eq_R]
@[simp] theorem State.pny_setPnx (s : State) (x : BitVec 6) : pny (s.setPnx x).regs = pny s.regs := by simp [pny_eq_R]
@[simp] theorem State.pnx_setPnx (s : State) (x : BitVec 6) : pnx (s.setPnx x).regs = x := by simp [pnx_eq_R]

theorem Dec.W_le (r : Regs) : Dec.W r ≤ 64 := by
  unfold Dec.W; split_ifs <;> decide

theorem Dec.H_le (r : Regs) : Dec.H r ≤ 64 := by
  unfold Dec.H; split_ifs <;> decide

/-- `PNAdvance()` in each setting of the flags (R132). -/
theorem State.pnAdvance_of_both {s : State} (hx : pxi s.regs = true) (hy : pyi s.regs = true) :
    s.pnAdvance = s.pnDraw := by simp [State.pnAdvance, hx, hy]
theorem State.pnAdvance_of_pxi {s : State} (hx : pxi s.regs = true) (hy : pyi s.regs = false) :
    s.pnAdvance = s.pnAdvanceX := by simp [State.pnAdvance, hx, hy]
theorem State.pnAdvance_of_pyi {s : State} (hx : pxi s.regs = false) (hy : pyi s.regs = true) :
    s.pnAdvance = s.pnAdvanceY := by simp [State.pnAdvance, hx, hy]
theorem State.pnAdvance_of_neither {s : State} (hx : pxi s.regs = false) (hy : pyi s.regs = false) :
    s.pnAdvance = s := by simp [State.pnAdvance, hx, hy]

/-- The advance leaves the reserved bits R0[7] and R1[7:6]. -/
theorem State.reserved_pnAdvance (s : State) :
    bit (s.pnAdvance.R 0) 7 = bit (s.R 0) 7 ∧ bit (s.pnAdvance.R 1) 6 = bit (s.R 1) 6 ∧
      bit (s.pnAdvance.R 1) 7 = bit (s.R 1) 7 := by
  unfold State.pnAdvance State.pnAdvanceX State.pnAdvanceY State.pnDraw
  dsimp only
  split_ifs <;> simp [bit_putLow6]

/-- The drawn cursor is the free value of the next draw, and the anomaly holds R0 to R2 as they stood. -/
theorem State.pnDraw_effect (s : State) :
    pny s.pnDraw.regs = Config.freePNY s.draws ∧ pnx s.pnDraw.regs = Config.freePNX s.draws ∧
      pnb s.pnDraw.regs = Config.freePNB s.draws ∧ s.pnDraw.draws = s.draws + 1 ∧
      s.pnDraw.outEvents = s.outEvents ++ [.anomaly (.pnXYAutoInc (s.R 0) (s.R 1) (s.R 2))] := by
  refine ⟨?_, ?_, ?_, rfl, rfl⟩ <;> simp [State.pnDraw]

/-- Only the draw of both flags counts as one and emits. -/
theorem State.pnAdvance_silent {s : State} (h : ¬(pxi s.regs = true ∧ pyi s.regs = true)) :
    s.pnAdvance.draws = s.draws ∧ s.pnAdvance.outEvents = s.outEvents := by
  unfold State.pnAdvance State.pnAdvanceX State.pnAdvanceY
  dsimp only
  split_ifs with hboth
  · exact absurd (Bool.and_eq_true_iff.mp hboth) h
  all_goals exact ⟨rfl, rfl⟩

/-- The row-major advance: the column steps, a full row steps the row, a full page toggles the plane. -/
theorem State.pnAdvanceX_effect (s : State) :
    let x := (pnx s.regs).toNat
    let y := (pny s.regs).toNat
    (pnx s.pnAdvanceX.regs).toNat = (if x + 1 < Dec.W s.regs then x + 1 else 0) ∧
      (pny s.pnAdvanceX.regs).toNat =
        (if x + 1 < Dec.W s.regs then y else if y + 1 < Dec.H s.regs then y + 1 else 0) ∧
      pnb s.pnAdvanceX.regs =
        (if x + 1 < Dec.W s.regs ∨ y + 1 < Dec.H s.regs then pnb s.regs else !pnb s.regs) := by
  unfold State.pnAdvanceX
  dsimp only
  by_cases hcol : (pnx s.regs).toNat + 1 < Dec.W s.regs
  · rw [if_neg (not_le.mpr hcol)]
    simp [hcol, Nat.mod_eq_of_lt (hcol.trans_le (Dec.W_le _))]
  · rw [if_pos (not_lt.mp hcol)]
    by_cases hrow : (pny s.regs).toNat + 1 < Dec.H s.regs
    · rw [if_neg (not_le.mpr hrow)]
      simp [hcol, hrow, Nat.mod_eq_of_lt (hrow.trans_le (Dec.H_le _))]
    · rw [if_pos (not_lt.mp hrow)]
      simp [hcol, hrow]

/-- The column-major advance: the row steps, a full column steps the column, a full page toggles the plane. -/
theorem State.pnAdvanceY_effect (s : State) :
    let x := (pnx s.regs).toNat
    let y := (pny s.regs).toNat
    (pny s.pnAdvanceY.regs).toNat = (if y + 1 < Dec.H s.regs then y + 1 else 0) ∧
      (pnx s.pnAdvanceY.regs).toNat =
        (if y + 1 < Dec.H s.regs then x else if x + 1 < Dec.W s.regs then x + 1 else 0) ∧
      pnb s.pnAdvanceY.regs =
        (if y + 1 < Dec.H s.regs ∨ x + 1 < Dec.W s.regs then pnb s.regs else !pnb s.regs) := by
  unfold State.pnAdvanceY
  dsimp only
  by_cases hrow : (pny s.regs).toNat + 1 < Dec.H s.regs
  · rw [if_neg (not_le.mpr hrow)]
    simp [hrow, Nat.mod_eq_of_lt (hrow.trans_le (Dec.H_le _))]
  · rw [if_pos (not_lt.mp hrow)]
    by_cases hcol : (pnx s.regs).toNat + 1 < Dec.W s.regs
    · rw [if_neg (not_le.mpr hcol)]
      simp [hcol, hrow, Nat.mod_eq_of_lt (hcol.trans_le (Dec.W_le _))]
    · rw [if_pos (not_lt.mp hcol)]
      simp [hcol, hrow]

/-- Settles O20, setting by setting of the two flags. -/
theorem patternNameCursorAdvances : Obligations.PatternNameCursorAdvances := by
  rintro s t rfl x y
  obtain ⟨h07, h16, h17⟩ := s.reserved_pnAdvance
  refine ⟨?regs, h07, h16, h17, ?both, State.pnAdvance_silent, ?rowMajor, ?columnMajor, ?neither⟩
  case regs =>
    intro i hi
    obtain ⟨h0, h1⟩ : i ≠ 0 ∧ i ≠ 1 := by simpa using hi
    exact s.R_pnAdvance i h0 h1
  case both =>
    intro hx hy
    rw [State.pnAdvance_of_both hx hy]
    exact s.pnDraw_effect
  case rowMajor =>
    intro hx hy
    rw [State.pnAdvance_of_pxi hx hy]
    exact s.pnAdvanceX_effect
  case columnMajor =>
    intro hx hy
    rw [State.pnAdvance_of_pyi hx hy]
    exact s.pnAdvanceY_effect
  case neither =>
    intro hx hy
    rw [State.pnAdvance_of_neither hx hy]
    exact fun _ _ => rfl

end Sys2Proof.Machine

namespace Sys2Proof.Machine

/-! ## The pattern-name address of a byte (R131 of 41_data_ports.md) -/

theorem Dec.twoPlane_iff (r : Regs) : Dec.twoPlane r = true ↔ md r < 2 := by
  simp only [Dec.twoPlane, Bool.or_eq_true, beq_iff_eq]
  omega

/-- Plane B starts at 2048 in the modes that have it; in the others the plane is ignored. -/
theorem planeOffset_eq (r : Regs) (pl : Plane) :
    (if Dec.twoPlane r && pl == .B then Dec.planeOff r else 0) = if md r < 2 ∧ pl = .B then 2048 else 0 := by
  by_cases h : md r < 2 <;> cases pl <;> simp [Dec.planeOff, Dec.twoPlane_iff, h]

/-- A name's second byte is reached only where it has one. -/
theorem nameByte_eq (r : Regs) (b : Nat) : (if Dec.pnBytes r = 2 then b else 0) = if md r = 0 then 0 else b := by
  by_cases h : md r = 0 <;> simp [Dec.pnBytes, h]

theorem pnAddr_formula (r : Regs) (pl : Plane) (row col b : Nat) :
    pnAddr r pl row col b =
      (if md r < 2 ∧ pl = .B then 2048 else 0) +
        (row % Dec.H r * Dec.W r + col % Dec.W r) * (if md r = 0 then 1 else 2) + (if md r = 0 then 0 else b) := by
  rw [pnAddr, planeOffset_eq, nameByte_eq, Nat.shiftLeft_eq, ← Dec.W_eq_two_pow_log2W, Dec.pnBytes]

theorem toNat_low6 (x : Byte) : (low6 x).toNat = x.toNat % 64 := by
  simp [low6]

/-- The port's address is that of the cursor R0.PNB, R0.PNY, R1.PNX and the phase. -/
theorem State.exists_pnPortLoc_eq (s : State) (phase : Fin 2) :
    ∃ a : BitVec 12, s.pnPortLoc phase = .pnt a ∧
      a.toNat = pnAddr s.regs (planeOf (pnb s.regs)) (pny s.regs).toNat (pnx s.regs).toNat phase.val :=
  ⟨_, rfl, Nat.mod_eq_of_lt (pnAddr_lt _ _ _ _ _ phase.isLt)⟩

/-- Settles O18: the formula of R131, its bound, and the port's cursor read off the bytes of R0 and R1. -/
theorem patternNameAddressFormula : Obligations.PatternNameAddressFormula := by
  refine ⟨fun r pl row col b hb => ⟨pnAddr_formula r pl row col b, pnAddr_lt r pl row col b hb⟩, fun s phase => ?_⟩
  rw [← toNat_low6, ← toNat_low6]
  exact s.exists_pnPortLoc_eq phase

/-! ## What the stores and reads of the data ports leave (R133 to R146 of 41_data_ports.md) -/

/-- A transaction's registers are as they were but for those it can change. -/
theorem sameRegs_of_ne_imp_mem {s t : State} {l : List (Fin 64)} (h : ∀ k, t.R k ≠ s.R k → k ∈ l) : SameRegs l s t :=
  fun k hk => by_contra fun hne => hk (h k hne)

/-- A port's write of v that ends in t: the latch of port j and the byte at l hold v, every other latch and byte is as
it was. -/
theorem State.portStore_effect {s t : State} {j : Fin 8} {l : Loc} {v : Byte}
    (hP : t.ports = (s.quiet.setP j v).ports)
    (hM : ∀ l', t.memRead l' = ((s.quiet.setP j v).memWrite l v).memRead l') :
    t.P j = v ∧ SamePorts [j] s t ∧ (l.present s.config = true → t.memRead l = v) ∧ SameTables [l] s t := by
  have hlatch (k : Fin 8) : t.P k = if j = k then v else s.P k := by
    rw [State.P, hP]
    exact State.P_setP s.quiet j k v
  refine ⟨by simp [hlatch], ?ports, ?stored, ?tables⟩
  case ports =>
    intro k hk
    rw [hlatch, if_neg (List.ne_of_not_mem_cons hk).symm]
  case stored => exact fun hpresent => by simp [hM, hpresent]
  case tables =>
    exact fun l' hl' => by_contra fun hne => List.ne_of_not_mem_cons hl' (State.eq_of_memRead_store_ne (hM l') hne).2

/-! ## The pattern-name port (R133, R134 of 41_data_ports.md) -/

theorem State.pnStepWrite_of_stay {s : State} (hph : s.phW = 0) (hb : Dec.pnBytes s.regs = 2) :
    s.pnStepWrite = { s with phW := 1 } := by simp [State.pnStepWrite, nextPhase, hph, hb]
theorem State.pnStepWrite_of_wrap {s : State} (h : s.phW = 1 ∨ Dec.pnBytes s.regs = 1) :
    s.pnStepWrite = { s with phW := 0 }.pnAdvance := by
  obtain ⟨hph, hb, -⟩ | ⟨-, hstep⟩ := s.pnStepWrite_cases
  · omega
  · exact hstep

theorem State.pnStepRead_of_stay {s : State} (hph : s.phR = 0) (hb : Dec.pnBytes s.regs = 2) :
    s.pnStepRead = { s with phR := 1 } := by simp [State.pnStepRead, nextPhase, hph, hb]
theorem State.pnStepRead_of_wrap {s : State} (h : s.phR = 1 ∨ Dec.pnBytes s.regs = 1) :
    s.pnStepRead = { s with phR := 0 }.pnAdvance := by
  obtain ⟨hph, hb, -⟩ | ⟨-, hstep⟩ := s.pnStepRead_cases
  · omega
  · exact hstep

/-- The advance after an access is the advance of the cursor before it. -/
theorem State.pnAdvance_after {s u : State} (hr : u.regs = s.regs) (hd : u.draws = s.draws) (he : u.outEvents = []) :
    SameRegs [] s.quiet.pnAdvance u.pnAdvance ∧ u.pnAdvance.draws = s.quiet.pnAdvance.draws ∧
      u.pnAdvance.outEvents = s.quiet.pnAdvance.outEvents := by
  obtain ⟨hregs, hdraws, hevents⟩ := State.pnAdvance_congr (s := u) (t := s.quiet) hr hd he
  exact ⟨fun i _ => congrArg (reg · i) hregs, hdraws, hevents⟩

theorem mem_zero_one_of_le_one {k : Fin 64} (h : k.val ≤ 1) : k ∈ [0, 1] := by
  simp only [List.mem_cons, List.not_mem_nil, or_false]
  omega

theorem exec_outP0 (v : Byte) (s : State) :
    exec (.outP0 v) s = .next ((s.quiet.setP 0 v).memWrite (s.pnPortLoc s.phW) v).pnStepWrite := rfl
theorem exec_inP0 (s : State) :
    exec .inP0 s = .next (s.quiet.reply (s.quiet.memRead (s.pnPortLoc s.phR))).pnStepRead := rfl

/-- Settles O21: the store at the cursor, then the step of phW, which stays in the cell or wraps. -/
theorem patternNameWriteEffect : Obligations.PatternNameWriteEffect := by
  intro v s
  obtain ⟨hlatch, hports, hstored, htables⟩ := State.portStore_effect (s := s) (j := 0) (l := s.pnPortLoc s.phW)
    (v := v) (by simp) (State.memRead_pnStepWrite _)
  refine ⟨_, exec_outP0 v s, hlatch, hports, hstored rfl, htables, ?stay, ?wrap, ?regs, by simp, by simp [SameSubs],
    by simp [SameBeam], by simp, by simp⟩
  case stay =>
    intro hph hb
    rw [State.pnStepWrite_of_stay (by simpa using hph) (by simpa using hb)]
    exact ⟨rfl, fun i _ => State.R_memWrite (s.quiet.setP 0 v) _ v i, by simp, by simp⟩
  case wrap =>
    intro h
    rw [State.pnStepWrite_of_wrap (by simpa using h)]
    exact ⟨by simp, State.pnAdvance_after (by simp) (by simp) (by simp)⟩
  case regs =>
    exact sameRegs_of_ne_imp_mem fun k hne =>
      mem_zero_one_of_le_one (State.le_one_of_R_pnStepWrite_ne (hne.trans_eq (by simp)))

/-- Settles O22: the reply of the byte at the cursor, then the step of phR, which stays in the cell or wraps. -/
theorem patternNameReadEffect : Obligations.PatternNameReadEffect := by
  intro s
  refine ⟨_, exec_inP0 s, by simp, fun l _ => by simp, fun j _ => by simp, ?stay, ?wrap, ?regs, by simp,
    by simp [SameSubs], by simp [SameBeam], by simp⟩
  case stay =>
    intro hph hb
    rw [State.pnStepRead_of_stay (by simpa using hph) (by simpa using hb)]
    exact ⟨rfl, fun _ _ => rfl, rfl, rfl⟩
  case wrap =>
    intro h
    rw [State.pnStepRead_of_wrap (by simpa using h)]
    exact ⟨by simp, State.pnAdvance_after rfl rfl rfl⟩
  case regs =>
    exact sameRegs_of_ne_imp_mem fun k hne => mem_zero_one_of_le_one (State.le_one_of_R_pnStepRead_ne hne)

/-! ## The sprite port (R137, R138 of 41_data_ports.md) -/

theorem sai_eq_R (s : State) : sai s.regs = bit (s.R 2) 2 := rfl

/-- A cursor byte after an optional advance is one further modulo 256 or as it was. -/
theorem toNat_optional_advance (f : Bool) (x : Byte) :
    (if f then x + 1 else x).toNat = if f then (x.toNat + 1) % 256 else x.toNat := by
  cases f <;> simp [BitVec.toNat_add]

/-- The advance after an access that kept the registers: R3 alone, on SAI. -/
theorem State.saAdvance_after {s u : State} (hu : u.regs = s.regs) :
    (u.saAdvance.R 3).toNat = (if bit (s.R 2) 2 then ((s.R 3).toNat + 1) % 256 else (s.R 3).toNat) ∧
      SameRegs [3] s u.saAdvance := by
  have hR (k : Fin 64) : u.R k = s.R k := congrArg (reg · k) hu
  refine ⟨?_, sameRegs_of_ne_imp_mem fun k hne => ?_⟩
  · rw [← toNat_optional_advance]
    simp [State.R_saAdvance, sai_eq_R, sap_eq_R, hR]
  · exact List.mem_singleton.mpr (State.eq_three_of_R_saAdvance_ne (hne.trans_eq (hR k).symm))

theorem exec_outP1 (v : Byte) (s : State) :
    exec (.outP1 v) s = .next ((s.quiet.setP 1 v).memWrite (.sat (s.R 3)) v).saAdvance := rfl
theorem exec_inP1 (s : State) :
    exec .inP1 s = .next (s.quiet.reply (s.quiet.memRead (.sat (s.R 3)))).saAdvance := rfl

/-- Settles O24: the store or the reply at R3, then the advance of R3. -/
theorem spritePortEffect : Obligations.SpritePortEffect := by
  intro v s
  obtain ⟨hlatch, hports, hstored, htables⟩ := State.portStore_effect (s := s) (j := 1) (l := .sat (s.R 3)) (v := v)
    (by simp) (State.memRead_saAdvance _)
  refine ⟨_, _, exec_outP1 v s, exec_inP1 s, hlatch, hports, fun j _ => by simp, hstored, htables, fun l _ => by simp,
    by simp [Silent], by simp [Replies], ?cursor⟩
  case cursor =>
    simp only [List.forall_mem_cons, List.not_mem_nil, false_imp_iff, implies_true, and_true]
    constructor
    · obtain ⟨hcursor, hregs⟩ := State.saAdvance_after
        (s := s) (u := (s.quiet.setP 1 v).memWrite (.sat (s.R 3)) v) (by simp)
      exact ⟨hcursor, hregs, by simp [SamePhases, SameSubs, SameBeam, SameInput]⟩
    · obtain ⟨hcursor, hregs⟩ := State.saAdvance_after
        (s := s) (u := s.quiet.reply (s.quiet.memRead (.sat (s.R 3)))) rfl
      exact ⟨hcursor, hregs, by simp [SamePhases, SameSubs, SameBeam, SameInput]⟩

/-! ## The scroll port (R139 to R141 of 41_data_ports.md) -/

theorem scb_eq_R (s : State) : scb s.regs = bit (s.R 2) 5 := rfl
theorem scp_eq_R (s : State) : scp s.regs = s.R 4 := rfl
theorem sci_eq_R (s : State) : sci s.regs = bit (s.R 2) 3 := rfl

/-- `SCAdvance()` with SCI clear, inside a plane, and at the plane's end (R139). -/
theorem State.scAdvance_of_not_sci {s : State} (h : bit (s.R 2) 3 = false) : s.scAdvance = s := by
  simp [State.scAdvance, sci_eq_R, h]
theorem State.scAdvance_of_lt {s : State} (h : bit (s.R 2) 3 = true) (hlt : (s.R 4).toNat + 1 < 256) :
    s.scAdvance = s.setR 4 (BitVec.ofNat 8 ((s.R 4).toNat + 1)) := by
  simp [State.scAdvance, sci_eq_R, scp_eq_R, h, hlt.ne]
theorem State.scAdvance_of_end {s : State} (h : bit (s.R 2) 3 = true) (hend : (s.R 4).toNat + 1 = 256) :
    s.scAdvance = (s.setR 4 0).setScb (!bit (s.R 2) 5) := by
  simp [State.scAdvance, sci_eq_R, scp_eq_R, scb_eq_R, h, hend]

@[simp] theorem State.R_setScb (s : State) (b : Bool) (i : Fin 64) :
    (s.setScb b).R i = if 2 = i then putBit (s.R 2) 5 b else s.R i := State.R_setR s 2 i _

/-- The advance after an access that kept the registers: R4 inside a plane, R4 and R2.SCB at its end, nothing without
SCI. -/
theorem State.scAdvance_after {s u : State} (hu : u.regs = s.regs) :
    (bit (s.R 2) 3 = true → (s.R 4).toNat + 1 < 256 →
      (u.scAdvance.R 4).toNat = (s.R 4).toNat + 1 ∧ SameRegs [4] s u.scAdvance) ∧
    (bit (s.R 2) 3 = true → (s.R 4).toNat + 1 = 256 →
      u.scAdvance.R 4 = 0 ∧ bit (u.scAdvance.R 2) 5 = !bit (s.R 2) 5 ∧
      (∀ k, k ≠ 5 → bit (u.scAdvance.R 2) k = bit (s.R 2) k) ∧ SameRegs [2, 4] s u.scAdvance) ∧
    (bit (s.R 2) 3 = false → SameRegs [] s u.scAdvance) := by
  have hR (k : Fin 64) : u.R k = s.R k := congrArg (reg · k) hu
  simp only [SameRegs, ← hR]
  refine ⟨fun h hlt => ?inside, fun h hend => ?planeEnd, fun h _ _ => by rw [State.scAdvance_of_not_sci h]⟩
  case inside =>
    rw [State.scAdvance_of_lt h hlt]
    refine ⟨by simpa using Nat.mod_eq_of_lt hlt, fun i hi => ?_⟩
    simp [(List.ne_of_not_mem_cons hi).symm]
  case planeEnd =>
    rw [State.scAdvance_of_end h hend]
    refine ⟨by simp, by simp, fun k hk => by simp [hk.symm], fun i hi => ?_⟩
    obtain ⟨h2, h4⟩ : i ≠ 2 ∧ i ≠ 4 := by simpa using hi
    simp [h2.symm, h4.symm]

theorem exec_outP2 (v : Byte) (s : State) :
    exec (.outP2 v) s = .next ((s.quiet.setP 2 v).memWrite s.scPortLoc v).scAdvance := rfl
theorem exec_inP2 (s : State) : exec .inP2 s = .next (s.quiet.reply (s.quiet.memRead s.scPortLoc)).scAdvance := rfl

/-- Settles O25: the store or the reply at the scroll cursor, then its advance. -/
theorem scrollPortEffect : Obligations.ScrollPortEffect := by
  intro v s
  obtain ⟨hlatch, hports, hstored, htables⟩ := State.portStore_effect (s := s) (j := 2) (l := s.scPortLoc) (v := v)
    (by simp) (State.memRead_scAdvance _)
  refine ⟨_, _, exec_outP2 v s, exec_inP2 s, hlatch, hports, fun j _ => by simp, hstored rfl, htables,
    fun l _ => by simp, by simp [Silent], by simp [Replies], rfl, ?cursor⟩
  case cursor =>
    simp only [List.forall_mem_cons, List.not_mem_nil, false_imp_iff, implies_true, and_true]
    constructor
    · obtain ⟨hinside, hend, hstay⟩ := State.scAdvance_after
        (s := s) (u := (s.quiet.setP 2 v).memWrite s.scPortLoc v) (by simp)
      exact ⟨hinside, hend, hstay, by simp [SamePhases, SameSubs, SameBeam, SameInput]⟩
    · obtain ⟨hinside, hend, hstay⟩ := State.scAdvance_after
        (s := s) (u := s.quiet.reply (s.quiet.memRead s.scPortLoc)) rfl
      exact ⟨hinside, hend, hstay, by simp [SamePhases, SameSubs, SameBeam, SameInput]⟩

/-! ## The palette port (R145, R146 of 41_data_ports.md) -/

theorem cpi_eq_R (s : State) : cpi s.regs = bit (s.R 2) 4 := rfl

theorem nextSub_val {k : Fin 3} (h : k ≠ 2) : (nextSub k).val = k.val + 1 := by
  simp only [nextSub]
  omega

/-- The advance after an access that kept the registers: R5 alone, on CPI. -/
theorem State.cpAdvance_after {s u : State} (hu : u.regs = s.regs) :
    (u.cpAdvance.R 5).toNat = if bit (s.R 2) 4 then ((s.R 5).toNat + 1) % 256 else (s.R 5).toNat := by
  have hR (k : Fin 64) : u.R k = s.R k := congrArg (reg · k) hu
  rw [← toNat_optional_advance]
  simp [State.R_cpAdvance, cpi_eq_R, cpp_eq_R, hR]

theorem State.palStepWrite_of_full {s : State} (h : s.subW = 2) :
    s.palStepWrite = ({ s with subW := 0 }.emit s.commitEvent).cpAdvance := if_pos h
theorem State.palStepWrite_of_partial {s : State} (h : s.subW ≠ 2) :
    s.palStepWrite = { s with subW := nextSub s.subW } := if_neg h
theorem State.palStepRead_of_full {s : State} (h : s.subR = 2) :
    s.palStepRead = { s with subR := 0 }.cpAdvance := if_pos h
theorem State.palStepRead_of_partial {s : State} (h : s.subR ≠ 2) :
    s.palStepRead = { s with subR := nextSub s.subR } := if_neg h

theorem exec_outP3 (v : Byte) (s : State) :
    exec (.outP3 v) s = .next ((s.quiet.setP 3 v).memWrite (.cram (s.R 5) s.subW) v).palStepWrite := rfl
theorem exec_inP3 (s : State) :
    exec .inP3 s = .next (s.quiet.reply (s.quiet.memRead (.cram (s.R 5) s.subR))).palStepRead := rfl

/-- Settles O27: the store at R5 and subW, then the step of subW, which commits and advances R5 after the third
component. -/
theorem paletteWriteEffect : Obligations.PaletteWriteEffect := by
  intro v s
  obtain ⟨hlatch, hports, hstored, htables⟩ := State.portStore_effect (s := s) (j := 3) (l := .cram (s.R 5) s.subW)
    (v := v) (by simp) (State.memRead_palStepWrite _)
  refine ⟨_, exec_outP3 v s, hlatch, hports, hstored, htables, ?full, ?component, ?regs, by simp, by simp [SamePhases],
    by simp [SameBeam], by simp [SameInput], by simp⟩
  case full =>
    intro h
    simp only [State.memRead_palStepWrite]
    rw [State.palStepWrite_of_full (by simpa using h)]
    exact ⟨by simp, by simp [State.commitEvent, cpp_eq_R], State.cpAdvance_after (by simp)⟩
  case component =>
    intro h
    rw [State.palStepWrite_of_partial (by simpa using h)]
    exact ⟨by simp [nextSub_val h], by simp, State.R_memWrite (s.quiet.setP 3 v) _ v 5⟩
  case regs =>
    exact sameRegs_of_ne_imp_mem fun k hne =>
      List.mem_singleton.mpr (State.eq_five_of_R_palStepWrite_ne (hne.trans_eq (by simp)))

/-- Settles O28: the reply of the byte at R5 and subR, then the step of subR, which advances R5 after the third
component. -/
theorem paletteReadEffect : Obligations.PaletteReadEffect := by
  intro s
  refine ⟨_, exec_inP3 s, by simp [Replies], ?full, ?component, ?regs, fun j _ => by simp, fun l _ => by simp, by simp,
    by simp [SamePhases], by simp [SameBeam], by simp [SameInput]⟩
  case full =>
    intro h
    rw [State.palStepRead_of_full (by simpa using h)]
    exact ⟨by simp, State.cpAdvance_after rfl⟩
  case component =>
    intro h
    rw [State.palStepRead_of_partial (by simpa using h)]
    exact ⟨nextSub_val h, rfl⟩
  case regs =>
    exact sameRegs_of_ne_imp_mem fun k hne => List.mem_singleton.mpr (State.eq_five_of_R_palStepRead_ne hne)

end Sys2Proof.Machine

namespace Sys2Proof.Machine

/-! ## The status and system control ports (R160, R162 of 42_status_control.md) -/

theorem exec_outP6 (v : Byte) (s : State) : exec (.outP6 v) s = .next (s.quiet.statusClear v) := rfl

/-- The two meanings of a system control write (R162). -/
theorem exec_outP7_of_set {v : Byte} (h : bit v 0 = true) (s : State) : exec (.outP7 v) s = .next s.quiet.resetOp :=
  congrArg Host.Outcome.next (if_pos h)
theorem exec_outP7_of_clear {v : Byte} (h : bit v 0 = false) (s : State) :
    exec (.outP7 v) s = .next (s.quiet.setP 7 v) :=
  congrArg Host.Outcome.next (if_neg (Bool.eq_false_iff.mp h))

/-- A line is low while its flag is (R243 of 60_exceptions.md). -/
theorem State.irqV_of_not_fv {s : State} (h : s.fv = false) : s.irqV = false := by simp [State.irqV, h]
theorem State.irqR_of_not_fp {s : State} (h : s.fp = false) : s.irqR = false := by simp [State.irqR, h]

/-- Settles O30: the flags by the clearing, each line with its flag, and the clearing moves no other state. -/
theorem statusClearEffect : Obligations.StatusClearEffect := by
  intro v s
  have hfv : (s.quiet.statusClear v).fv = (s.fv && !bit v 0) := s.quiet.fv_statusClear v
  have hfp : (s.quiet.statusClear v).fp = (s.fp && !bit v 1) := s.quiet.fp_statusClear v
  refine ⟨_, exec_outP6 v s, hfv, hfp, s.quiet.bit_P_statusClear v, fun h => State.irqV_of_not_fv (by simp [hfv, h]),
    fun h => State.irqR_of_not_fp (by simp [hfp, h]), ?ports, fun i _ => by simp, fun l _ => by simp,
    by simp [SamePhases], by simp [SameSubs], by simp [SameBeam], by simp [SameInput], by simp [Silent]⟩
  case ports => exact fun j hj => s.quiet.P_statusClear v j (List.ne_of_not_mem_cons hj)

/-- Settles O11: bit 0 of the byte says whether the transaction is the reset operation or the store to P7. -/
theorem systemControlWriteResetsOrStores : Obligations.SystemControlWriteResetsOrStores := by
  intro v s
  cases hv : bit v 0 with
  | true =>
    refine ⟨_, exec_outP7_of_set hv s, by simp [Silent], by simp [SameBeam], by simp [SameInput], fun _ => ?resets,
      nofun⟩
    case resets =>
      exact ⟨s.quiet.P_resetOp, fun i hi => (s.quiet.R_resetOp i).trans (if_pos hi),
        fun i hi => (s.quiet.R_resetOp i).trans (if_neg hi), fun l hl => (s.quiet.memRead_resetOp l).trans (if_pos hl),
        rfl, rfl, rfl, rfl⟩
  | false =>
    refine ⟨_, exec_outP7_of_clear hv s, ⟨rfl, rfl⟩, ⟨rfl, rfl⟩, ⟨rfl, rfl⟩, nofun, fun _ => ?stores⟩
    case stores =>
      refine ⟨by simp, fun j hj => ?_, fun _ _ => rfl, fun l _ => by simp, ⟨rfl, rfl⟩, ⟨rfl, rfl⟩⟩
      simp [(List.ne_of_not_mem_cons hj).symm]

end Sys2Proof.Machine

namespace Sys2Proof.Machine

/-! ## The tile resolver (R172 to R181 of 43_tile_resolver.md) -/

/-- Plane B of a single-plane mode resolves to nothing (R181). -/
theorem State.tileInfo_of_disabled (s : State) {p : Plane} (row col : Nat) (h : p = .B ∧ md s.regs ≥ 2) :
    s.tileInfo p row col = ⟨0, 0, false, false, []⟩ := by
  obtain ⟨rfl, hmd⟩ := h
  have htwo : Dec.twoPlane s.regs = false := by
    rw [← Bool.not_eq_true, Dec.twoPlane_iff]
    omega
  simp [State.tileInfo, Dec.planeBEnabled, htwo]

/-- The flip flags are those of the second byte, which is 0 where a name has one byte (R174). -/
theorem State.flips_eq (s : State) (p : Plane) (row col i : Nat) :
    (flipsOn s.regs && bit (s.pnByte1 p row col) i) = (flip s.regs && bit (s.pnByte1 p row col) i) := by
  rcases Dec.pnBytes_cases s.regs with h | h <;> simp [flipsOn, State.pnByte1, h, bit]

/-- A cell of an enabled plane, field by field (R174, R179, R180). -/
theorem State.tileInfo_of_enabled (s : State) {p : Plane} (row col : Nat) (h : p = .B → md s.regs < 2) :
    s.tileInfo p row col =
      { code := if tileLimit s.config s.regs ≤ s.pagedCode p row col then 0 else s.pagedCode p row col
        colour := tileColour s.regs
          (basedCode s.regs p row (s.pnByte0 p row col) (s.pnByte1 p row col)) (s.pnByte1 p row col)
        flipx := flip s.regs && bit (s.pnByte1 p row col) 6
        flipy := flip s.regs && bit (s.pnByte1 p row col) 7
        anomalies := if tileLimit s.config s.regs ≤ s.pagedCode p row col
          then [.tileCodeRange p row col (md s.regs)] else [] } := by
  have hon : (p == .B && !Dec.planeBEnabled s.regs) = false := by
    cases p with
    | A => rfl
    | B => simp [Dec.planeBEnabled, (Dec.twoPlane_iff s.regs).mpr (h rfl)]
  simp [State.tileInfo, hon, State.flips_eq]

/-- Settles O48: a disabled plane returns code 0; an enabled one returns the paged code on one side of the limit and
0 with the anomaly on the other. -/
theorem tileCodesStayInRange : Obligations.TileCodesStayInRange := by
  intro s p row col hlimit
  by_cases hoff : p = .B ∧ md s.regs ≥ 2
  · have hinfo := s.tileInfo_of_disabled row col hoff
    exact ⟨by rw [hinfo]; exact hlimit, fun _ => hinfo, fun hon => absurd hoff hon⟩
  · have hinfo := s.tileInfo_of_enabled (p := p) row col fun hp => Nat.lt_of_not_le fun hmd => hoff ⟨hp, hmd⟩
    rw [hinfo]
    refine ⟨?_, fun hon => absurd hon hoff, fun _ => ⟨fun hin => ?_, fun hout => ?_⟩⟩
    · dsimp only
      split_ifs with hout
      · exact hlimit
      · exact Nat.lt_of_not_le hout
    · simp [hin]
    · simp [hout]

/-! ### The scroll words (R176, R177) -/

/-- Settles O51: one branch of `ColumnVScroll` for SDV = 0, SDV = 1 and the rest, each on a word of the table. -/
theorem scrollDivisionFallsBack : Obligations.ScrollDivisionFallsBack := by
  intro s p col
  refine ⟨fun h0 => ?full, fun h1 => ?column, fun h2 => ?fallback, fun _ _ => rfl⟩
  case full => exact if_pos h0
  case column =>
    rw [State.columnVScroll, if_neg (by omega), if_pos h1]
    rfl
  case fallback =>
    rw [State.columnVScroll, if_neg (by omega), if_neg (by omega)]
    rfl

/-! ### Fields, shifts and masks as division and remainder -/

theorem bit_eq_decide (x : Byte) (i : Nat) : bit x i = decide (x.toNat / 2 ^ i % 2 = 1) := by
  rw [bit, BitVec.getLsbD, Nat.testBit_eq_decide_div_mod_eq]

theorem bit_seven (x : Byte) : bit x 7 = decide (x.toNat / 128 = 1) := by
  have hlt : x.toNat / 128 < 2 := by have := x.isLt; omega
  simp [bit_eq_decide, Nat.mod_eq_of_lt hlt]

theorem Dec.H_cases (r : Regs) : Dec.H r = 32 ∨ Dec.H r = 64 := by
  unfold Dec.H; split_ifs <;> simp

theorem Dec.H_eq_two_pow_log2H (r : Regs) : Dec.H r = 2 ^ Dec.log2H r := by
  rcases Dec.H_cases r with hH | hH <;> simp [Dec.log2H, hH]

/-- The tile size in dots (R171). -/
theorem two_pow_tileShift (r : Regs) : 2 ^ Dec.tileShift r = if pts r then 16 else 8 := by
  cases h : pts r <;> simp [Dec.tileShift, h]

/-- A band is an eighth of the rows (R175). -/
theorem H_div_eight (r : Regs) : Dec.H r / 8 = 2 ^ Dec.baseYShift r := by
  rcases Dec.H_cases r with hH | hH <;> simp [Dec.baseYShift, Dec.log2H, hH]

theorem bandOf_eq (r : Regs) (row : Nat) : bandOf r row = Fin.ofNat 8 (row % Dec.H r / (Dec.H r / 8)) := by
  rw [bandOf, Nat.shiftRight_eq_div_pow, H_div_eight]

theorem band_lt_eight (r : Regs) (row : Nat) : row % Dec.H r / (Dec.H r / 8) < 8 := by
  have hrow := Nat.mod_lt row (Dec.H_pos r)
  rcases Dec.H_cases r with hH | hH <;> rw [hH] at hrow ⊢ <;> omega

theorem Dec.pnBytes_eq_one_iff (r : Regs) : Dec.pnBytes r = 1 ↔ md r = 0 := by simp [Dec.pnBytes]
theorem Dec.pnBytes_eq_two_iff (r : Regs) : Dec.pnBytes r = 2 ↔ md r ≠ 0 := by simp [Dec.pnBytes]

/-- The raw code of R173 in the two widths of a name. -/
theorem rawCode_eq (r : Regs) (b0 b1 : Byte) :
    rawCode r b0 b1 = if md r = 0 then b0.toNat else b0.toNat + 256 * (b1.toNat % 16) := by
  simp [rawCode, Dec.pnBytes_eq_one_iff, bits, Nat.shiftLeft_eq, Nat.mul_comm]

/-- The base of the band stands above the raw code (R175). -/
theorem basedCode_eq (r : Regs) (p : Plane) (row : Nat) (b0 b1 : Byte) :
    basedCode r p row b0 b1 = rawCode r b0 b1 +
      base r p (Fin.ofNat 8 (row % Dec.H r / (Dec.H r / 8))) * (if md r = 0 then 256 else 4096) := by
  rw [basedCode, bandOf_eq, Nat.shiftLeft_eq]
  by_cases h : md r = 0 <;> simp [Dec.pnBytes, h]

/-- The page number of R178 from the scroll positions in dots. -/
theorem State.pageNumber_eq (s : State) (p : Plane) :
    s.pageNumber p = 8 * (s.vs p 0 / (Dec.H s.regs * if pts s.regs then 16 else 8) % 8) +
      s.hs p / (Dec.W s.regs * if pts s.regs then 16 else 8) % 8 := by
  simp only [State.pageNumber, Nat.shiftRight_eq_div_pow, pow_add, two_pow_tileShift, ← Dec.W_eq_two_pow_log2W,
    ← Dec.H_eq_two_pow_log2H]
  rw [Nat.mul_comm 8]

/-- The second byte of a name is 0 where a name has one byte (R172). -/
theorem State.toNat_pnByte1 (s : State) (p : Plane) (row col : Nat) :
    (s.pnByte1 p row col).toNat = if md s.regs = 0 then 0 else (s.memRead (pnLoc s.regs p row col 1)).toNat := by
  by_cases h : md s.regs = 0 <;> simp [State.pnByte1, Dec.pnBytes_eq_two_iff, h]

/-- The colour of R179: the fetched bits of the code, else the high nibble of the second byte in the 16-colour modes. -/
theorem tileColour_eq (r : Regs) (codeB : Nat) (b1 : Byte) :
    tileColour r codeB b1 =
      if tcfe r then codeB / 2 ^ tcfs r % 16 else if md r = 1 ∨ md r = 2 then b1.toNat / 16 else 0 := by
  have hattr : (Dec.col16 r && Dec.pnBytes r == 2) = decide (md r = 1 ∨ md r = 2) := by
    have hmd := md_lt r
    rcases (by omega : md r = 0 ∨ md r = 1 ∨ md r = 2 ∨ md r = 3) with h | h | h | h <;>
      simp [Dec.col16, Dec.pnBytes, h]
  have hnibble : bits b1 4 4 = b1.toNat / 16 := Nat.mod_eq_of_lt (by have := b1.isLt; omega)
  simp only [tileColour, hattr, hnibble, Nat.shiftRight_eq_div_pow, decide_eq_true_eq]

/-- Settles O49: the resolver's shifts, masks and bit tests, each rewritten by its arithmetic form, are the rules. -/
theorem resolverFollowsItsRules : Obligations.ResolverFollowsItsRules := by
  intro s p row col hon
  dsimp only
  rw [s.tileInfo_of_enabled row col hon]
  simp only [tileColour_eq, State.pagedCode, State.pageNumber_eq, basedCode_eq, rawCode_eq, bit_seven,
    bit_eq_decide _ 6, State.toNat_pnByte1, Nat.shiftLeft_eq]
  exact ⟨band_lt_eight s.regs row, rfl, rfl, rfl, rfl, rfl⟩

/-! ### A cell written through the pattern-name port (R109 of 30_encoding.md, R131 and R134 of 41_data_ports.md) -/

theorem execAll_append {is : List Instr} {s t : State} (h : execAll is s = .next t) (js : List Instr) :
    execAll (is ++ js) s = execAll js t := by
  induction is generalizing s with
  | nil =>
    cases h
    rfl
  | cons i is ih =>
    cases hi : exec i s with
    | next u =>
      rw [execAll_cons hi] at h
      exact (execAll_cons hi _).trans (ih h)
    | fault f => nomatch f
    | refused r => simp [execAll, hi] at h

theorem execAll_singleton (i : Instr) (s : State) : execAll [i] s = exec i s := by
  cases h : exec i s <;> simp [execAll, h]

/-- `WREG` of R0 or R1 restarts both pattern-name phases (R122). -/
theorem execAll_wreg_cursor {a : BitVec 6} (ha : a = 0 ∨ a = 1) (v : Byte) (s : State) :
    ∃ t, execAll [.outP5 (a.setWidth 8), .outP4 v] s = .next t ∧ t.R a.toFin = v ∧ SameRegs [a.toFin] s t ∧
      t.phR = 0 ∧ t.phW = 0 := by
  have hrun := (execAll_cons (exec_outP5 (a.setWidth 8) s) [.outP4 v]).trans
    (execAll_cons (exec_outP4_of_selected (a := a) (by simp) v) _)
  obtain ⟨t, ht, hR, -, hkeep⟩ := execAll_wreg a v s
  cases ht.symm.trans hrun
  exact ⟨_, ht, hR, hkeep, State.phases_restart ha _⟩

/-- The cursor fields of the two bytes `SETPN` writes (R33, R34). -/
theorem bit_rowByte (pl : BitVec 1) (row : BitVec 6) :
    bit (0#1 ++ pl ++ row : BitVec (1 + 1 + 6)) 6 = bit (pl.setWidth 8) 0 := by
  have hbits (i : Nat) (x : BitVec (1 + 1 + 6)) : bit x i = x.getLsbD i := rfl
  rw [hbits, BitVec.getLsbD_append, BitVec.getLsbD_append]
  simp [bit]
theorem low6_rowByte (pl : BitVec 1) (row : BitVec 6) : low6 (0#1 ++ pl ++ row : BitVec (1 + 1 + 6)) = row :=
  BitVec.extractLsb'_append_eq_right
theorem low6_colByte (col : BitVec 6) : low6 (0#2 ++ col : BitVec (2 + 6)) = col :=
  BitVec.extractLsb'_append_eq_right

theorem SameRegs.trans {l : List (Fin 64)} {s t u : State} (h : SameRegs l s t) (h' : SameRegs l t u) :
    SameRegs l s u := fun i hi => (h' i hi).trans (h i hi)

/-- The fields of R7, R8 and R10 while only the cursor's registers change. -/
theorem SameRegs.md_eq {s t : State} (h : SameRegs [0, 1] s t) : md t.regs = md s.regs :=
  congrArg (bits · 1 2) (h 7 (by decide))
theorem SameRegs.flip_eq {s t : State} (h : SameRegs [0, 1] s t) : flip t.regs = flip s.regs :=
  congrArg (bit · 3) (h 7 (by decide))
theorem SameRegs.pgs_eq {s t : State} (h : SameRegs [0, 1] s t) : pgs t.regs = pgs s.regs :=
  congrArg (bit · 0) (h 8 (by decide))
theorem SameRegs.tcfe_eq {s t : State} (h : SameRegs [0, 1] s t) : tcfe t.regs = tcfe s.regs :=
  congrArg (bit · 0) (h 10 (by decide))
theorem SameRegs.pnBytes_eq {s t : State} (h : SameRegs [0, 1] s t) : Dec.pnBytes t.regs = Dec.pnBytes s.regs := by
  rw [Dec.pnBytes, h.md_eq, Dec.pnBytes]

/-- The address of a cell does not depend on the cursor (R131). -/
theorem SameRegs.pnLoc_eq {s t : State} (h : SameRegs [0, 1] s t) (p : Plane) (row col b : Nat) :
    pnLoc t.regs p row col b = pnLoc s.regs p row col b := by
  simp only [pnLoc, pnAddr_formula, Dec.H, Dec.W, h.md_eq, h.pgs_eq]

/-- The two bytes of a name stand at two addresses. -/
theorem pnLoc_zero_ne_one {r : Regs} (hb : Dec.pnBytes r = 2) (p : Plane) (row col : Nat) :
    pnLoc r p row col 0 ≠ pnLoc r p row col 1 := by
  intro heq
  have haddr : pnAddr r p row col 0 % 4096 = pnAddr r p row col 1 % 4096 :=
    congrArg BitVec.toNat (Loc.pnt.inj heq)
  have hnext : pnAddr r p row col 1 = pnAddr r p row col 0 + 1 := by simp [pnAddr, hb]
  omega

/-- `SETPN` sets the port on the cell, restarts both phases and changes no register but R0 and R1. -/
theorem execAll_setPn (pl : BitVec 1) (row col : BitVec 6) (s : State) :
    ∃ t, execAll (setPn pl row col) s = .next t ∧ SameRegs [0, 1] s t ∧ t.phR = 0 ∧ t.phW = 0 ∧
      ∀ phase, t.pnPortLoc phase =
        pnLoc s.regs (planeOf (bit (pl.setWidth 8) 0)) row.toNat col.toNat phase.val := by
  obtain ⟨u, hu, hR0, hkeep0, -⟩ :=
    execAll_wreg_cursor (.inl rfl) (0#1 ++ pl ++ row : BitVec (1 + 1 + 6)) s
  obtain ⟨t, ht, hR1, hkeep1, hphR, hphW⟩ :=
    execAll_wreg_cursor (.inr rfl) (0#2 ++ col : BitVec (2 + 6)) u
  have hR0' : t.R 0 = (0#1 ++ pl ++ row : BitVec (1 + 1 + 6)) := (hkeep1 0 (by decide)).trans hR0
  have hregs : SameRegs [0, 1] s t := by
    intro i hi
    obtain ⟨h0, h1⟩ : i ∉ [0] ∧ i ∉ [1] := by simpa using hi
    exact (hkeep1 i h1).trans (hkeep0 i h0)
  have hplane : pnb t.regs = bit (pl.setWidth 8) 0 := by rw [pnb_eq_R, hR0', bit_rowByte]
  have hrow : pny t.regs = row := by rw [pny_eq_R, hR0', low6_rowByte]
  have hcol : pnx t.regs = col := by rw [pnx_eq_R]; exact (congrArg low6 hR1).trans (low6_colByte col)
  refine ⟨t, (execAll_append hu _).trans ht, hregs, hphR, hphW, fun phase => ?_⟩
  rw [State.pnPortLoc, hplane, hrow, hcol, hregs.pnLoc_eq]

/-- The port's address while no register changes. -/
theorem SameRegs.pnPortLoc_eq {s t : State} (h : SameRegs [] s t) (phase : Fin 2) :
    t.pnPortLoc phase = s.pnPortLoc phase := by
  have hregs : t.regs = s.regs := Vector.ext fun i hi => h ⟨i, hi⟩ List.not_mem_nil
  simp only [State.pnPortLoc, hregs]

/-- A byte written after `SETPN` stands at the cell's first address; where a name has a second byte the port is then
on that. -/
theorem execAll_setPn_outP0 (pl : BitVec 1) (row col : BitVec 6) (v : Byte) (s : State) :
    ∃ t, execAll (setPn pl row col ++ [.outP0 v]) s = .next t ∧ SameRegs [0, 1] s t ∧
      t.memRead (pnLoc s.regs (planeOf (bit (pl.setWidth 8) 0)) row.toNat col.toNat 0) = v ∧
      (Dec.pnBytes s.regs = 2 →
        t.pnPortLoc t.phW = pnLoc s.regs (planeOf (bit (pl.setWidth 8) 0)) row.toNat col.toNat 1) := by
  obtain ⟨u, hu, hregs, -, hphase, hloc⟩ := execAll_setPn pl row col s
  obtain ⟨t, ht, -, -, hstored, -, hstay, -, hregs', -⟩ := patternNameWriteEffect v u
  rw [hphase, hloc] at hstored
  refine ⟨t, (execAll_append hu _).trans ((execAll_singleton ..).trans ht), hregs.trans hregs', hstored, fun hb => ?_⟩
  obtain ⟨hphase', hsame, -⟩ := hstay hphase (hregs.pnBytes_eq.trans hb)
  rw [hphase', hsame.pnPortLoc_eq, hloc]
  rfl

/-- Two bytes written after `SETPN` stand in order at the two addresses of a two-byte cell. -/
theorem execAll_setPn_outP0_outP0 {s : State} (hb : Dec.pnBytes s.regs = 2) (pl : BitVec 1) (row col : BitVec 6)
    (v0 v1 : Byte) :
    ∃ t, execAll (setPn pl row col ++ [.outP0 v0, .outP0 v1]) s = .next t ∧ SameRegs [0, 1] s t ∧
      t.memRead (pnLoc s.regs (planeOf (bit (pl.setWidth 8) 0)) row.toNat col.toNat 0) = v0 ∧
      t.memRead (pnLoc s.regs (planeOf (bit (pl.setWidth 8) 0)) row.toNat col.toNat 1) = v1 := by
  obtain ⟨u, hu, hregs, hfirst, hloc⟩ := execAll_setPn_outP0 pl row col v0 s
  obtain ⟨t, ht, -, -, hstored, htables, -, -, hregs', -⟩ := patternNameWriteEffect v1 u
  rw [hloc hb] at hstored htables
  have hkept := htables _ (mt List.mem_singleton.mp (pnLoc_zero_ne_one hb _ row.toNat col.toNat))
  have hrun : execAll ((setPn pl row col ++ [.outP0 v0]) ++ [.outP0 v1]) s = .next t :=
    (execAll_append hu _).trans ((execAll_singleton ..).trans ht)
  exact ⟨t, by rwa [List.append_assoc] at hrun, hregs.trans hregs', hkept.trans hfirst, hstored⟩

/-- The resolver's bytes from the bytes at the cell's addresses before the cursor's registers changed (R172). -/
theorem SameRegs.pnByte0_eq {s t : State} (h : SameRegs [0, 1] s t) (p : Plane) (row col : Nat) :
    t.pnByte0 p row col = t.memRead (pnLoc s.regs p row col 0) := by
  rw [State.pnByte0, h.pnLoc_eq]
theorem SameRegs.pnByte1_eq {s t : State} (h : SameRegs [0, 1] s t) (p : Plane) (row col : Nat) :
    t.pnByte1 p row col = if Dec.pnBytes s.regs = 2 then t.memRead (pnLoc s.regs p row col 1) else 0 := by
  rw [State.pnByte1, h.pnBytes_eq, h.pnLoc_eq]

/-- The plane bit of `SETPN` that selects plane B. -/
theorem plane_bit_of_B {pl : BitVec 1} (h : planeOf (bit (pl.setWidth 8) 0) = .B) : pl = 1 := by
  rcases BitVec.eq_zero_or_eq_one pl with rfl | rfl
  · exact absurd h (by decide)
  · rfl

/-- Settles O50: the bytes written stand where the resolver, which does not look at the cursor, reads the cell. -/
theorem resolverReadsWhatThePortWrote : Obligations.ResolverReadsWhatThePortWrote := by
  intro s pl row col v0 v1 p
  refine ⟨fun hb => ?oneByte, fun hb htwo => ?twoByte⟩
  case oneByte =>
    obtain ⟨t, ht, hregs, hfirst, -⟩ := execAll_setPn_outP0 pl row col v0 s
    have hmd : md t.regs = 0 := hregs.md_eq.trans ((Dec.pnBytes_eq_one_iff _).mp hb)
    have hb0 : t.pnByte0 p row.toNat col.toNat = v0 := (hregs.pnByte0_eq ..).trans hfirst
    have hb1 : t.pnByte1 p row.toNat col.toNat = 0 := by simp [hregs.pnByte1_eq, hb]
    refine ⟨t, ht, hb0, hb1, by rw [rawCode_eq, if_pos hmd], ?_⟩
    rw [t.tileInfo_of_enabled _ _ fun _ => by omega, hb1]
    refine ⟨by simp [bit], by simp [bit], fun htcfe => ?_⟩
    simp [tileColour_eq, hregs.tcfe_eq, htcfe, hmd]
  case twoByte =>
    obtain ⟨t, ht, hregs, hfirst, hsecond⟩ := execAll_setPn_outP0_outP0 hb pl row col v0 v1
    have hmd : md t.regs ≠ 0 := hregs.md_eq.trans_ne ((Dec.pnBytes_eq_two_iff _).mp hb)
    have hb0 : t.pnByte0 p row.toNat col.toNat = v0 := (hregs.pnByte0_eq ..).trans hfirst
    have hb1 : t.pnByte1 p row.toNat col.toNat = v1 := by rw [hregs.pnByte1_eq, if_pos hb, hsecond]
    have hon : p = .B → md t.regs < 2 := by
      intro hp
      rw [hregs.md_eq, ← Dec.twoPlane_iff]
      exact htwo (plane_bit_of_B hp)
    refine ⟨t, ht, hb0, hb1, by rw [rawCode_eq, if_neg hmd], fun htcfe => ?_⟩
    rw [t.tileInfo_of_enabled _ _ hon, hb1, hregs.flip_eq]
    refine ⟨?_, rfl, rfl⟩
    have hlt := md_lt t.regs
    rw [tileColour_eq, hregs.tcfe_eq, htcfe, ← hregs.md_eq]
    by_cases h3 : md t.regs = 3
    · simp [h3]
    · have h12 : md t.regs = 1 ∨ md t.regs = 2 := by omega
      simp [h3, h12]

end Sys2Proof.Machine

namespace Sys2Proof.Machine

/-! ## The wrapped copies of a sprite (R192, R196 of 44_sprite_iterator.md) -/

theorem sprDots_eq (sz : Fin 4) : sprDots sz = 8 * 2 ^ sz.val := Nat.shiftLeft_eq ..

theorem sprDots_le (sz : Fin 4) : sprDots sz ≤ 64 := by
  revert sz; decide

/-- The copies as a product: in each coordinate the place itself and, beyond the threshold, the place 512 before it. -/
theorem mem_copies {x y d : Nat} {p : Int × Int} :
    p ∈ copies x y d ↔
      (p.1 = x ∨ 512 - d < x ∧ p.1 = x - 512) ∧ (p.2 = y ∨ 512 - d < y ∧ p.2 = y - 512) := by
  obtain ⟨px, py⟩ := p
  by_cases hx : 512 - d < x <;> by_cases hy : 512 - d < y <;> simp [copies, hx, hy] <;> tauto

/-- In one coordinate, a dot of the sprite is covered at its place modulo 512. -/
theorem exists_copy_at_mod {x d i : Nat} (hx : x < 512) (hd : d ≤ 512) (hi : i < d) :
    ∃ px : Int, (px = x ∨ 512 - d < x ∧ px = x - 512) ∧ px + i = ((x + i) % 512 : Nat) := by
  by_cases hin : x + i < 512
  · exact ⟨x, .inl rfl, by omega⟩
  · exact ⟨x - 512, .inr ⟨by omega, rfl⟩, by omega⟩

theorem length_copies (x y d : Nat) : 1 ≤ (copies x y d).length ∧ (copies x y d).length ≤ 4 := by
  by_cases hx : 512 - d < x <;> by_cases hy : 512 - d < y <;> simp [copies, hx, hy]

/-- Settles O54: the copies are a product of the two coordinates, so each coordinate is covered by itself. -/
theorem spriteCopiesCoverTheTorus : Obligations.SpriteCopiesCoverTheTorus := by
  intro x y sz hx hy d X Y
  refine ⟨fun hxd hyd => ?inside, fun hxd hyd => ?right, fun hxd hyd => ?bottom, fun hxd hyd => ?corner,
    fun i j hi hj => ?cover⟩
  case inside => simp [copies, hxd.not_gt, hyd.not_gt, X, Y]
  case right => simp [copies, hxd, hyd.not_gt, X, Y]
  case bottom => simp [copies, hxd.not_gt, hyd, X, Y]
  case corner => simp [copies, hxd, hyd, X, Y]
  case cover =>
    have hd : d ≤ 512 := (sprDots_le sz).trans (by decide)
    obtain ⟨px, hpx, hi⟩ := exists_copy_at_mod hx hd hi
    obtain ⟨py, hpy, hj⟩ := exists_copy_at_mod hy hd hj
    exact ⟨(px, py), mem_copies.mpr ⟨hpx, hpy⟩, hi, hj⟩

/-! ## The draws of an entry (R190 to R195 of 44_sprite_iterator.md) -/

/-- The 64 entries of R190 stand within the one-byte cursor. -/
theorem State.satByte_of_lt (s : State) {n k : Nat} (hn : n < 64) (hk : k < 4) :
    s.satByte n k = s.memRead (.sat (BitVec.ofNat 8 (4 * n + k))) :=
  if_pos (by omega)

theorem sprBank_eq (r : Regs) (sz : Fin 4) :
    sprBank r sz = (reg r 6).toNat % 64 / 4 ^ sz.val % 2 ^ (6 - 2 * sz.val) := by
  simp [sprBank, sba, bits, Nat.shiftRight_eq_div_pow, Nat.pow_mul]

theorem State.sprCode_eq (s : State) (n : Nat) :
    s.sprCode n = 256 * sprBank s.regs (s.sprSize n) + s.sprSN n := by
  rw [State.sprCode, Nat.shiftLeft_eq, Nat.mul_comm]

theorem State.sprFlip_lt (s : State) (n : Nat) : s.sprFlip n < 4 := by
  unfold State.sprFlip
  split_ifs
  · exact bits_lt (s.satByte n 3) 2 2
  · exact bits_lt (reg s.regs 9) 1 2

theorem State.map_place_sprDraws (s : State) (n : Nat) :
    (s.sprDraws n).map (fun d => (d.px, d.py)) = copies (s.sprX n) (s.sprY n) (sprDots (s.sprSize n)) := by
  rw [State.sprDraws, List.map_map]
  exact List.map_id _

/-- What every draw of an entry carries, whichever copy it is. -/
theorem State.fields_of_mem_sprDraws {s : State} {n : Nat} {d : Draw} (hd : d ∈ s.sprDraws n) :
    d.n = n ∧ d.d = sprDots (s.sprSize n) ∧ d.code = (if s.sprOut n then 0 else s.sprCode n) ∧
      d.colour = s.sprColour n ∧ d.flipx = (s.sprFlip n).testBit 0 ∧ d.flipy = (s.sprFlip n).testBit 1 := by
  obtain ⟨p, -, rfl⟩ := List.mem_map.mp hd
  exact ⟨rfl, rfl, rfl, rfl, rfl, rfl⟩

theorem State.sprOut_iff (s : State) (n : Nat) :
    s.sprOut n = true ↔ s.config.numSpr[(s.sprSize n).val] ≤ s.sprCode n := decide_eq_true_iff

theorem sprShown_iff (r : Regs) : sprShown r = true ↔ dspe r = true ∧ spd r = false := by simp [sprShown]

theorem mem_sprOrder {c : Config} {n : Nat} : n ∈ sprOrder c ↔ n < c.satBytes / 4 := by simp [sprOrder]

theorem State.mem_spriteAnomalies {s : State} {a : Anomaly} :
    a ∈ s.spriteAnomalies ↔ sprShown s.regs = true ∧
      ∃ n < s.config.satBytes / 4, s.sprOut n = true ∧ a = .spriteCodeRange n (s.sprCode n) := by
  by_cases hshown : sprShown s.regs = true
  · simp [State.spriteAnomalies, hshown, mem_sprOrder]
  · simp [State.spriteAnomalies, hshown]

/-- Settles O52: the entry's fields from its bytes, then the draws from the fields. -/
theorem spriteEntryDecode : Obligations.SpriteEntryDecode := by
  intro s n hn byte aux size fl bank codeFull
  have hbyte : ∀ k < 4, s.satByte n k = s.memRead (.sat (BitVec.ofNat 8 (4 * n + k))) :=
    fun k hk => s.satByte_of_lt hn hk
  have haux : s.sprAux n = aux := by rw [State.sprAux, hbyte 3 (by decide)]; rfl
  have hsize : s.sprSize n = size := by rw [State.sprSize, haux]
  have hflip : s.sprFlip n = fl := by rw [State.sprFlip, haux]
  have hcode : s.sprCode n = codeFull := by
    rw [State.sprCode_eq, hsize, sprBank_eq, State.sprSN, hbyte 0 (by decide)]; rfl
  have hsc : s.sprSC n = byte 3 / 16 := by
    have hlt : byte 3 < 256 := BitVec.isLt _
    rw [State.sprSC, hbyte 3 (by decide)]
    exact Nat.mod_eq_of_lt (by omega)
  have hx : s.sprX n = 256 * (byte 3 % 2) + byte 1 := by
    rw [State.sprX, hbyte 3 (by decide), hbyte 1 (by decide)]; simp [bits, byte]
  have hy : s.sprY n = 256 * (byte 3 / 2 % 2) + byte 2 := by
    rw [State.sprY, hbyte 3 (by decide), hbyte 2 (by decide)]; simp [bits, byte]
  have hout : s.sprOut n = true ↔ s.config.numSpr[size.val] ≤ codeFull := by
    simp only [State.sprOut_iff, hsize, hcode]
  refine ⟨?places, fun d hd => ?fields, fun hdspe hspd hlisted => ?anomaly⟩
  case places => rw [State.map_place_sprDraws, hx, hy, hsize, sprDots_eq]
  case fields =>
    obtain ⟨hdn, hdd, hdcode, hdcolour, hdx, hdy⟩ := State.fields_of_mem_sprDraws hd
    have hfl : fl < 4 := hflip ▸ s.sprFlip_lt n
    refine ⟨hdn, by rw [hdd, hsize, sprDots_eq], ?_, ?_, ?_, ?_⟩
    · simp only [hdcode, hcode, hout]
    · simp only [hdcolour, State.sprColour, hcode, hsize, hsc, Nat.shiftRight_eq_div_pow]
    · rw [hdx, hflip, Nat.testBit_zero]
    · rw [hdy, hflip, Nat.testBit_eq_decide_div_mod_eq, Nat.pow_one, Nat.mod_eq_of_lt (by omega)]
  case anomaly =>
    rw [State.mem_spriteAnomalies, sprShown_iff, ← hout]
    constructor
    · rintro ⟨-, m, -, hm, hnm⟩
      obtain ⟨rfl, -⟩ := Anomaly.spriteCodeRange.inj hnm
      exact hm
    · exact fun h => ⟨⟨hdspe, hspd⟩, n, hlisted, h, by rw [hcode]⟩

/-! ## The draw list (R195, R197, R198 of 44_sprite_iterator.md) -/

theorem State.spriteList_of_shown {s : State} (h : sprShown s.regs = true) :
    s.spriteList = (sprOrder s.config).flatMap s.sprDraws := if_pos h

theorem State.spriteList_of_hidden {s : State} (h : sprShown s.regs = false) : s.spriteList = [] := by
  simp [State.spriteList, h]

theorem State.map_n_sprDraws (s : State) (n : Nat) :
    (s.sprDraws n).map Draw.n = List.replicate (s.sprDraws n).length n :=
  List.map_eq_replicate_iff.mpr fun _ hd => (State.fields_of_mem_sprDraws hd).1

/-- How often each value stands in a list that repeats every entry of another list. -/
theorem count_flatMap_replicate (l : List Nat) (k : Nat → Nat) (n : Nat) :
    (l.flatMap fun m => List.replicate (k m) m).count n = l.count n * k n := by
  induction l with
  | nil => simp
  | cons m l ih =>
    rw [List.flatMap_cons, List.count_append, ih, List.count_replicate, List.count_cons]
    by_cases hm : m = n
    · simp [hm, Nat.add_mul, Nat.add_comm]
    · simp [hm]

theorem Config.numSpr_default (sz : Fin 4) : Config.default.numSpr[sz.val] = 256 * 2 ^ (6 - 2 * sz.val) := by
  revert sz; decide

/-- The default clamp is the range of the code (R193, R195). -/
theorem State.sprCode_lt (s : State) (n : Nat) : s.sprCode n < Config.default.numSpr[(s.sprSize n).val] := by
  have hsn : s.sprSN n < 256 := BitVec.isLt _
  have hbank : sprBank s.regs (s.sprSize n) < 2 ^ (6 - 2 * (s.sprSize n).val) := Nat.mod_lt _ (Nat.two_pow_pos _)
  rw [State.sprCode_eq, Config.numSpr_default]
  omega

/-- Settles O53: the entries of the list are the order of R197 with each entry repeated once per copy. -/
theorem spriteListOrderAndBounds : Obligations.SpriteListOrderAndBounds := by
  intro s count ns
  refine ⟨fun hoff => ?hidden, fun hdspe hspd => ?shown, fun hnum => ?default⟩
  case hidden =>
    refine State.spriteList_of_hidden ?_
    rcases hoff with h | h <;> simp [sprShown, h]
  case shown =>
    have hlist : s.spriteList = (List.range count).reverse.flatMap s.sprDraws :=
      State.spriteList_of_shown ((sprShown_iff _).mpr ⟨hdspe, hspd⟩)
    have hns : ns = (List.range count).reverse.flatMap fun n => List.replicate (s.sprDraws n).length n := by
      simp only [ns, hlist, List.map_flatMap, State.map_n_sprDraws]
    refine ⟨hlist, fun hsat => ?order, ?falling, fun d hd => ?listed, fun n hn => ?repeated⟩
    case order =>
      have hcount : count = 64 := by simp only [count, hsat]; decide
      rw [hcount]
      decide
    case falling =>
      rw [hns, List.pairwise_flatMap, List.pairwise_reverse]
      refine ⟨fun n _ => by simp [List.pairwise_replicate], List.pairwise_le_range.imp fun hle => ?_⟩
      simpa [List.mem_replicate] using fun _ _ => hle
    case listed =>
      rw [hlist] at hd
      obtain ⟨n, hn, hd⟩ := List.mem_flatMap.mp hd
      rw [(State.fields_of_mem_sprDraws hd).1]
      simpa using hn
    case repeated =>
      have hone : (List.range count).reverse.count n = 1 :=
        List.count_eq_one_of_mem (List.nodup_reverse.mpr List.nodup_range) (by simpa using hn)
      rw [hns, count_flatMap_replicate, hone, Nat.one_mul, State.sprDraws, List.length_map]
      exact length_copies ..
  case default =>
    refine List.eq_nil_iff_forall_not_mem.mpr fun a ha => ?_
    obtain ⟨-, n, -, hout, -⟩ := State.mem_spriteAnomalies.mp ha
    simp only [State.sprOut_iff, hnum] at hout
    exact absurd (s.sprCode_lt n) (by omega)

/-- An entry's bytes depend on SAT alone. -/
theorem State.satByte_congr {s s' : State} (h : ∀ a, s.memRead (.sat a) = s'.memRead (.sat a)) :
    s.satByte = s'.satByte := by
  funext n k
  simp only [State.satByte, h]

/-- Settles O55: the iterator reads the state through the entries' bytes and the fields of R6, R7, R9 and R11. -/
theorem spriteListDependsOnlyOnItsInputs : Obligations.SpriteListDependsOnlyOnItsInputs := by
  intro s s' hconfig hsat hregs
  have hbyte := State.satByte_congr hsat
  have hsba : sba s.regs = sba s'.regs := congrArg (bits · 0 6) (hregs 6 (by decide))
  have hdspe : dspe s.regs = dspe s'.regs := congrArg (bit · 0) (hregs 7 (by decide))
  have hspd : spd s.regs = spd s'.regs := congrArg (bit · 4) (hregs 7 (by decide))
  have hsga : sga s.regs = sga s'.regs := congrArg (bits · 1 2) (hregs 9 (by decide))
  have hspas : spas s.regs = spas s'.regs := congrArg (bit · 3) (hregs 9 (by decide))
  have hscfe : scfe s.regs = scfe s'.regs := congrArg (bit · 0) (hregs 11 (by decide))
  have hscfs : scfs s.regs = scfs s'.regs := congrArg (bits · 1 2) (hregs 11 (by decide))
  have hshown : sprShown s.regs = sprShown s'.regs := by rw [sprShown, hdspe, hspd, sprShown]
  have hsize : s.sprSize = s'.sprSize := by
    funext n; simp only [State.sprSize, State.sprAux, hspas, hsga, hbyte]
  have hflip : s.sprFlip = s'.sprFlip := by
    funext n; simp only [State.sprFlip, State.sprAux, hspas, hsga, hbyte]
  have hcode : s.sprCode = s'.sprCode := by
    funext n; simp only [State.sprCode, sprBank, State.sprSN, hsba, hsize, hbyte]
  have hcolour : s.sprColour = s'.sprColour := by
    funext n; simp only [State.sprColour, State.sprSC, hscfe, hscfs, hcode, hsize, hconfig, hbyte]
  have hout : s.sprOut = s'.sprOut := by
    funext n; simp only [State.sprOut, hcode, hsize, hconfig]
  have hdraws : s.sprDraws = s'.sprDraws := by
    funext n
    simp only [State.sprDraws, State.sprX, State.sprY, hbyte, hsize, hflip, hcode, hcolour, hout]
  constructor
  · simp only [State.spriteList, hshown, hconfig, hdraws]
  · simp only [State.spriteAnomalies, hshown, hconfig, hout, hcode]

end Sys2Proof.Machine

namespace Sys2Proof.Machine

/-! ## The page in dots (R171 of 43_tile_resolver.md) -/

theorem Dec.pageDotsW_eq (r : Regs) : Dec.pageDotsW r = Dec.W r * if pts r then 16 else 8 := by
  rw [Dec.pageDotsW, Nat.shiftLeft_eq, two_pow_tileShift]

theorem Dec.pageDotsH_eq (r : Regs) : Dec.pageDotsH r = Dec.H r * if pts r then 16 else 8 := by
  rw [Dec.pageDotsH, Nat.shiftLeft_eq, two_pow_tileShift]

theorem Dec.pageDotsW_pos (r : Regs) : 0 < Dec.pageDotsW r := by
  rw [Dec.pageDotsW, Nat.shiftLeft_eq]
  exact Nat.mul_pos (Dec.W_pos r) (Nat.two_pow_pos _)

theorem Dec.pageDotsH_pos (r : Regs) : 0 < Dec.pageDotsH r := by
  rw [Dec.pageDotsH, Nat.shiftLeft_eq]
  exact Nat.mul_pos (Dec.H_pos r) (Nat.two_pow_pos _)

/-! ## The ROZ map (R213, R215 of 45_roz.md) -/

/-- With unit steps along the axes and no shear, the exact coordinates are the dot's own, scaled by 2^7 (R213). -/
theorem rozUV_of_identity {r : Regs} (hax : axRaw r = 0) (hay : ayRaw r = 0) (hdx : dxRaw r = 0x80)
    (hdy : dyRaw r = 0x80) (hdxy : dxyRaw r = 0) (hdyx : dyxRaw r = 0) (sx sy : Int) :
    rozU r sx sy = sx * 2 ^ 7 ∧ rozV r sx sy = sy * 2 ^ 7 := by
  simp [rozU, rozV, Dec.AX, Dec.AY, Dec.DX, Dec.DY, Dec.DXY, Dec.DYX, hax, hay, hdx, hdy, hdxy, hdyx]

theorem rozUV_of_zero {r : Regs} (h : ∀ i : Fin 64, 25 ≤ i.val → i.val ≤ 38 → reg r i = 0) (sx sy : Int) :
    rozU r sx sy = 0 ∧ rozV r sx sy = 0 := by
  simp [rozU, rozV, Dec.AX, Dec.AY, Dec.DX, Dec.DY, Dec.DXY, Dec.DYX, axRaw, ayRaw, dxRaw, dyRaw, dxyRaw, dyxRaw, h]

/-- Settles O57: the wrap bounds the map; the identity's scale 2^7 is what the floor divides by, and 0 stays 0. -/
theorem rozMapWrapsOnThePage : Obligations.RozMapWrapsOnThePage := by
  intro c r sx sy
  have hw : (0 : Int) < Dec.pageDotsW r := mod_cast Dec.pageDotsW_pos r
  have hh : (0 : Int) < Dec.pageDotsH r := mod_cast Dec.pageDotsH_pos r
  have hW : (Dec.pageDotsW r : Int) = Dec.W r * if pts r then 16 else 8 := mod_cast Dec.pageDotsW_eq r
  have hH : (Dec.pageDotsH r : Int) = Dec.H r * if pts r then 16 else 8 := mod_cast Dec.pageDotsH_eq r
  refine ⟨?width, ?height, ?identity, ?zero⟩
  case width => exact ⟨Int.emod_nonneg _ hw.ne', hW ▸ Int.emod_lt_of_pos _ hw⟩
  case height => exact ⟨Int.emod_nonneg _ hh.ne', hH ▸ Int.emod_lt_of_pos _ hh⟩
  case identity =>
    intro hfrac hax hay hdx hdy hdxy hdyx
    obtain ⟨hu, hv⟩ := rozUV_of_identity hax hay hdx hdy hdxy hdyx sx sy
    have hscale : (2 ^ 7 : Int) ≠ 0 := by decide
    rw [rozMap, hu, hv, hfrac, Int.mul_ediv_cancel _ hscale, Int.mul_ediv_cancel _ hscale, Dec.pageDotsW_eq,
      Dec.pageDotsH_eq]
  case zero =>
    intro hbytes
    obtain ⟨hu, hv⟩ := rozUV_of_zero hbytes sx sy
    simp [rozMap, hu, hv]

/-! ## What a dot samples (R213, R214 of 45_roz.md) -/

theorem State.sampleMap_affine {s : State} (h : roze s.regs = true) (sx sy : Int) :
    s.sampleMap .A sx sy = (rozMap s.config s.regs sx sy, []) := by
  simp [State.sampleMap, h]

theorem State.sampleMap_axisAligned {s : State} {p : Plane} (h : roze s.regs = false ∨ p = .B) (sx sy : Int) :
    s.sampleMap p sx sy = s.blitMap p sx sy := by
  obtain h | rfl := h
  · simp [State.sampleMap, h]
  · simp [State.sampleMap]

/-- Settles O56: the two branches of the sample map, with the page and the column in dots. -/
theorem sampleMapFollowsItsRules : Obligations.SampleMapFollowsItsRules := by
  intro s p sx sy pw ph x scroll
  have hw : (Dec.pageDotsW s.regs : Int) = pw := congrArg Nat.cast (Dec.pageDotsW_eq s.regs)
  have hh : (Dec.pageDotsH s.regs : Int) = ph := congrArg Nat.cast (Dec.pageDotsH_eq s.regs)
  refine ⟨?affine, ?axisAligned, by decide⟩
  case affine =>
    rintro hroze rfl
    rw [State.sampleMap_affine hroze, rozMap, hw, hh]
    rfl
  case axisAligned =>
    intro haligned
    rw [State.sampleMap_axisAligned haligned, State.blitMap, hw, hh, Nat.shiftRight_eq_div_pow, two_pow_tileShift]

/-! ## The parameters after a byte write (R212 of 45_roz.md) -/

/-- A data write leaves the selected register with the byte written and the others as they stood (R122). -/
theorem exec_outP4_reg (v : Byte) (s : State) :
    ∃ t, exec (.outP4 v) s = .next t ∧ ∀ i, reg t.regs i = if i = s.addr.toFin then v else s.R i := by
  obtain ⟨t, hexec, hself, hothers, -⟩ := registerDataWriteEffect v s
  refine ⟨t, hexec, fun i => ?_⟩
  split
  case isTrue h => exact h ▸ hself
  case isFalse h => exact hothers i (by simpa using h)

/-- Settles O58: a parameter is a function of its bytes, and the write replaces the selected one among them. -/
theorem rozParametersDecodeOnEachByte : Obligations.RozParametersDecodeOnEachByte := by
  intro v s
  obtain ⟨t, hexec, hreg⟩ := exec_outP4_reg v s
  refine ⟨t, hexec, ?_⟩
  and_intros
  all_goals
    intro haddr
    simp [Dec.AX, Dec.AY, Dec.DX, Dec.DY, Dec.DXY, Dec.DYX, axRaw, ayRaw, dxRaw, dyRaw, dxyRaw, dyxRaw, hreg, haddr]

end Sys2Proof.Machine

namespace Sys2Proof.Machine

/-! ## Geometry and event positions (R221 to R223 of 46_crtc.md) -/

/-- The line after the display area is below the vertical total, which is non-zero then (R222). -/
theorem vblankPos_eq_some_iff (c : Config) (r : Regs) (p : Nat × Nat) :
    vblankPos c r = some p ↔ 0 < Dec.htotal c r ∧ p = (0, vds r + vdw r) ∧ vds r + vdw r < Dec.vtotal r := by
  by_cases hg : geometryValid c r = true
  · rw [vblankPos_iff c r hg, Prod.ext_iff, and_iff_right ((geometryValid_iff c r).mp hg).1, and_assoc]
  · rw [geometryValid_iff] at hg
    simp only [vblankPos, geometryValid_iff, Bool.and_eq_true, hg, false_and, if_false, reduceCtorEq, false_iff]
    omega

/-- Both parts of the raster position are below their totals, which are non-zero then (R223). -/
theorem rasterPos_eq_some_iff (c : Config) (r : Regs) (p : Nat × Nat) :
    rasterPos c r = some p ↔
      p = (c.hUnit * ih r, Dec.IV r) ∧ c.hUnit * ih r < Dec.htotal c r ∧ Dec.IV r < Dec.vtotal r := by
  by_cases hg : geometryValid c r = true
  · rw [rasterPos_iff c r hg, Prod.ext_iff, and_assoc]
  · rw [geometryValid_iff] at hg
    simp only [rasterPos, geometryValid_iff, Bool.and_eq_true, hg, false_and, if_false, reduceCtorEq, false_iff]
    omega

/-- Settles O38: each CRTC field is read from one or two of R39 to R46, and a minimum is at most either side. -/
theorem geometryIsAFunctionOfTheCrtcRegisters : Obligations.GeometryIsAFunctionOfTheCrtcRegisters := by
  intro c r r' h
  obtain ⟨hht, hhds, hhdw, hhsw, hhbw⟩ : Dec.htotal c r = Dec.htotal c r' ∧ Dec.hdispStart c r = Dec.hdispStart c r' ∧
      Dec.hdispWidth c r = Dec.hdispWidth c r' ∧ hsw r = hsw r' ∧ hbw r = hbw r' := by
    simp [Dec.htotal, Dec.hdispStart, Dec.hdispWidth, htl, hds, hdw, hsw, hbw, h]
  obtain ⟨hvt, hvds, hvdw, hvsw, hvbw⟩ : Dec.vtotal r = Dec.vtotal r' ∧ vds r = vds r' ∧ vdw r = vdw r' ∧
      vsw r = vsw r' ∧ vbw r = vbw r' := by
    simp [Dec.vtotal, vtl, vds, vdw, vsw, vbw, h]
  refine ⟨?geometry, Option.ext fun p => ?vblank, ?clipped⟩
  case geometry =>
    simp only [geometry, geometryValid, framePeriod, Dec.vdispStart, Dec.vdispHeight, hht, hhds, hhdw, hhsw, hhbw, hvt,
      hvds, hvdw, hvsw, hvbw]
  case vblank => simp only [vblankPos_eq_some_iff, hht, hvt, hvds, hvdw]
  case clipped =>
    simp only [geometry, Dec.hdispWidth, Dec.vdispHeight]
    omega

/-- The lowest bits of a byte are its remainder. -/
theorem bits_bottom (x : Byte) (len : Nat) : bits x 0 len = x.toNat % 2 ^ len := by simp [bits]

/-- The highest bits of a byte are its quotient. -/
theorem bits_top (x : Byte) {lo len : Nat} (h : lo + len = 8) : bits x lo len = x.toNat / 2 ^ lo := by
  refine Nat.mod_eq_of_lt (Nat.div_lt_of_lt_mul ?_)
  rw [← Nat.pow_add, h]
  exact x.isLt

theorem vtl_eq (r : Regs) : vtl r = 256 * ((reg r 46).toNat % 2) + (reg r 43).toNat := by
  rw [vtl, bits_bottom, Nat.pow_one]
theorem vdw_eq (r : Regs) : vdw r = 256 * ((reg r 46).toNat / 2 % 2) + (reg r 45).toNat := rfl
theorem hsw_eq (r : Regs) : hsw r = (reg r 42).toNat % 16 := bits_bottom _ 4
theorem hbw_eq (r : Regs) : hbw r = (reg r 42).toNat / 16 := bits_top _ rfl
theorem vsw_eq (r : Regs) : vsw r = (reg r 46).toNat / 4 % 8 := rfl
theorem vbw_eq (r : Regs) : vbw r = (reg r 46).toNat / 32 := bits_top _ rfl
theorem Dec.IV_eq (r : Regs) : Dec.IV r = 256 * ((reg r 14).toNat / 128) + (reg r 16).toNat := by
  rw [Dec.IV, iv8, bits_top _ rfl]; rfl

/-- Settles O39: the fields of R58 by division and remainder, then the two positions by their equivalences. -/
theorem geometryAndEventPositions : Obligations.GeometryAndEventPositions := by
  intro c r b g ht vt vh
  have hht : Dec.htotal c r = ht := rfl
  have hvt : Dec.vtotal r = vt := vtl_eq r
  have hvh : Dec.vdispHeight r = vh := vdw_eq r
  refine ⟨?valid, hht, hvt, ?period, rfl, ?right, rfl, ?bottom, ?empty, ?hsync, ?hborder, vsw_eq r, vbw_eq r, ?vblank,
    ?raster⟩
  case valid => exact hvt ▸ geometryValid_iff c r
  case period => exact congrArg (ht * ·) hvt
  case right => exact congrArg (· - 1) (Nat.cast_min (α := Int) ..).symm
  case bottom =>
    have hy1 : g.y1 = ((Dec.vdispStart r + Dec.vdispHeight r) ⊓ Dec.vtotal r : Nat) - 1 :=
      congrArg (· - 1) (Nat.cast_min (α := Int) ..).symm
    rw [hy1, hvh, hvt]
    rfl
  case empty => simp [Geometry.visibleEmpty]
  case hsync => exact congrArg (c.hUnit * ·) (hsw_eq r)
  case hborder => exact congrArg (c.hUnit * ·) (hbw_eq r)
  case vblank => exact fun p => hvt ▸ hvh ▸ vblankPos_eq_some_iff c r p
  case raster =>
    intro p
    have h := rasterPos_eq_some_iff c r p
    rwa [hvt, Dec.IV_eq] at h

/-! ## One TICK (R224 of 46_crtc.md, R241 of 60_exceptions.md) -/

/-- The state after one TICK. -/
def State.ticked (s : State) : State := s.quiet.dot

theorem exec_tick (s : State) : exec .tick s = .next s.ticked := rfl

@[simp] theorem State.ticked_regs (s : State) : s.ticked.regs = s.regs := by simp [State.ticked]
@[simp] theorem State.ticked_config (s : State) : s.ticked.config = s.config := by simp [State.ticked]

theorem State.ticked_of_invalid {s : State} (hg : ¬geometryValid s.config s.regs = true) : s.ticked = s.quiet :=
  State.dot_invalid s.quiet hg

theorem State.hpos_ticked {s : State} (hg : geometryValid s.config s.regs = true) :
    s.ticked.hpos = BitVec.ofNat 11 s.beamNext.1 := (State.dot_position s.quiet hg).1

theorem State.vpos_ticked {s : State} (hg : geometryValid s.config s.regs = true) :
    s.ticked.vpos.toNat = s.beamNext.2 := (State.dot_beam s.quiet hg).2

/-- A TICK sets FV exactly if the beam goes to the vblank position with IEV set. -/
theorem State.fv_ticked_iff {s : State} (hg : geometryValid s.config s.regs = true) :
    s.ticked.fv = true ↔ s.fv = true ∨ iev s.regs = true ∧ vblankPos s.config s.regs = some s.beamNext := by
  have hdot : s.ticked.fv = _ := State.fv_dot s.quiet
  have hnext : s.quiet.beamNext = s.beamNext := rfl
  have hfv : s.quiet.fv = s.fv := rfl
  simp [hdot, hnext, hfv, hg, and_comm]

/-- A TICK sets FP exactly if the beam goes to the raster position with IEP set. -/
theorem State.fp_ticked_iff {s : State} (hg : geometryValid s.config s.regs = true) :
    s.ticked.fp = true ↔ s.fp = true ∨ iep s.regs = true ∧ rasterPos s.config s.regs = some s.beamNext := by
  have hdot : s.ticked.fp = _ := State.fp_dot s.quiet
  have hnext : s.quiet.beamNext = s.beamNext := rfl
  have hfp : s.quiet.fp = s.fp := rfl
  simp [hdot, hnext, hfp, hg, and_comm]

/-- Settles O32: the frame of TICK, then the beam and the two flags by where `beamNext` is. -/
theorem tickMovesTheBeamAndRaisesFlags : Obligations.TickMovesTheBeamAndRaisesFlags := by
  intro s
  have hbit (j : Fin 8) (k : Nat) (h : j ≠ 6 ∨ 2 ≤ k) : bit (s.ticked.P j) k = bit (s.P j) k :=
    State.bit_P_dot s.quiet j k h
  refine ⟨s.ticked, exec_tick s, by simp [State.ticked, Silent], ?regs, ?ports, fun k hk => hbit 6 k (.inr hk), ?tables,
    by simp [State.ticked, SamePhases], by simp [State.ticked, SameSubs], by simp [State.ticked, SameInput], ?beam⟩
  case regs => exact fun i _ => by simp [State.ticked]
  case ports => exact fun j hj => BitVec.eq_of_getLsbD_eq fun k _ => hbit j k (.inl (by simpa using hj))
  case tables => exact fun l _ => by simp [State.ticked]
  case beam =>
    intro htotal vtotal h v
    refine ⟨fun hzero => ?invalid, fun hh hv => ?valid⟩
    case invalid =>
      have hg : ¬geometryValid s.config s.regs = true := by
        rw [geometryValid_iff]
        change ¬(0 < htotal ∧ 0 < vtotal)
        omega
      rw [State.ticked_of_invalid hg]
      simp [SameBeam, SamePorts]
    case valid =>
      have hg : geometryValid s.config s.regs = true :=
        (geometryValid_iff _ _).mpr ⟨Nat.pos_of_ne_zero hh, Nat.pos_of_ne_zero hv⟩
      have hfst : s.beamNext.1 = h := s.beamNext_fst
      have hsnd : s.beamNext.2 = v := s.beamNext_snd
      refine ⟨hfst ▸ State.hpos_ticked hg, hsnd ▸ State.vpos_ticked hg, ?_, ?_⟩
      · rw [State.fv_ticked_iff hg, vblankPos_iff _ _ hg, hfst, hsnd]
        rfl
      · rw [State.fp_ticked_iff hg, rasterPos_iff _ _ hg, hfst, hsnd]
        rfl

/-! ## A run of TICKs (R226 of 46_crtc.md) -/

/-- The state after n TICKs. -/
def State.afterTicks (n : Nat) (s : State) : State := State.ticked^[n] s

@[simp] theorem State.afterTicks_zero (s : State) : s.afterTicks 0 = s := rfl

theorem State.afterTicks_succ (n : Nat) (s : State) : s.afterTicks (n + 1) = (s.afterTicks n).ticked :=
  Function.iterate_succ_apply' ..

theorem execAll_ticks (n : Nat) (s : State) : execAll (ticks n) s = .next (s.afterTicks n) := by
  induction n generalizing s with
  | zero => rfl
  | succ n ih => exact (execAll_cons (exec_tick s) _).trans (ih s.ticked)

@[simp] theorem State.afterTicks_regs (n : Nat) (s : State) : (s.afterTicks n).regs = s.regs := by
  induction n with
  | zero => rfl
  | succ n ih => rw [State.afterTicks_succ, State.ticked_regs, ih]

@[simp] theorem State.afterTicks_config (n : Nat) (s : State) : (s.afterTicks n).config = s.config := by
  induction n with
  | zero => rfl
  | succ n ih => rw [State.afterTicks_succ, State.ticked_config, ih]

/-- Without a raster position a TICK leaves FP. -/
theorem State.fp_ticked_of_rasterPos_none {s : State} (h : rasterPos s.config s.regs = none) : s.ticked.fp = s.fp := by
  by_cases hg : geometryValid s.config s.regs = true
  · rw [Bool.eq_iff_iff, State.fp_ticked_iff hg, h]
    simp
  · rw [State.ticked_of_invalid hg]
    rfl

/-- Settles O36: a position at or beyond a total is no raster position, at every one of the n TICKs. -/
theorem outOfRangeRasterNeverFires : Obligations.OutOfRangeRasterNeverFires := by
  intro n s hout
  have hnone : rasterPos s.config s.regs = none := by
    refine Option.eq_none_iff_forall_ne_some.mpr fun p hp => ?_
    obtain ⟨-, hh, hv⟩ := (rasterPos_eq_some_iff ..).mp hp
    exact hout.elim (Nat.not_le_of_lt hh) (Nat.not_le_of_lt hv)
  have hfp : (s.afterTicks n).fp = s.fp := by
    induction n with
    | zero => rfl
    | succ n ih =>
      rw [State.afterTicks_succ, State.fp_ticked_of_rasterPos_none (by simpa using hnone), ih]
  exact ⟨_, execAll_ticks n s, hfp, by simp [State.irqR, hfp]⟩

/-! ### The beam's place in the frame -/

/-- The beam is inside a frame whose lines the 11 bits of hpos can count (R251 of 60_exceptions.md). -/
def State.Scanning (s : State) : Prop := s.beamInside ∧ Dec.htotal s.config s.regs ≤ 2048

theorem State.Scanning.valid {s : State} (h : s.Scanning) : geometryValid s.config s.regs = true := by
  obtain ⟨⟨hh, hv⟩, -⟩ := h
  exact (geometryValid_iff _ _).mpr ⟨Nat.zero_lt_of_lt hh, Nat.zero_lt_of_lt hv⟩

theorem State.Scanning.ticked_eq_beamNext {s : State} (h : s.Scanning) :
    s.ticked.hpos.toNat = s.beamNext.1 ∧ s.ticked.vpos.toNat = s.beamNext.2 := by
  refine ⟨?_, State.vpos_ticked h.valid⟩
  rw [State.hpos_ticked h.valid, BitVec.toNat_ofNat]
  exact Nat.mod_eq_of_lt ((State.beamNext_fst_lt s h.valid).trans_le h.2)

theorem State.Scanning.position_ticked {s : State} (h : s.Scanning) :
    (s.ticked.hpos.toNat, s.ticked.vpos.toNat) = s.beamNext :=
  Prod.ext h.ticked_eq_beamNext.1 h.ticked_eq_beamNext.2

theorem State.beamNext_snd_lt {s : State} (h : s.beamInside) : s.beamNext.2 < Dec.vtotal s.regs := by
  have hv := h.2
  rw [State.beamNext_snd]
  split_ifs <;> omega

theorem State.Scanning.ticked {s : State} (h : s.Scanning) : s.ticked.Scanning := by
  obtain ⟨hh, hv⟩ := h.ticked_eq_beamNext
  simp only [State.Scanning, State.beamInside, State.ticked_regs, State.ticked_config, hh, hv]
  exact ⟨⟨State.beamNext_fst_lt s h.valid, State.beamNext_snd_lt h.1⟩, h.2⟩

theorem State.Scanning.afterTicks {s : State} (h : s.Scanning) (n : Nat) : (s.afterTicks n).Scanning :=
  Function.Iterate.rec State.Scanning h (fun _ => State.Scanning.ticked) n

/-- The dots of h lines of w dots, counted line by line, are numbered below w * h. -/
theorem lineByLine_lt {w h x y : Nat} (hx : x < w) (hy : y < h) : y * w + x < w * h :=
  calc y * w + x < (y + 1) * w := by rw [Nat.succ_mul]; exact Nat.add_lt_add_left hx _
    _ ≤ h * w := Nat.mul_le_mul_right w hy
    _ = w * h := Nat.mul_comm h w

theorem State.beamIndex_lt {s : State} (h : s.beamInside) : s.beamIndex < framePeriod s.config s.regs :=
  lineByLine_lt h.1 h.2

/-- The next place is the next dot of the line, or dot 0 of the next line, or the start of the frame. -/
theorem State.Scanning.beamIndex_ticked {s : State} (h : s.Scanning) :
    s.ticked.beamIndex = (s.beamIndex + 1) % framePeriod s.config s.regs := by
  obtain ⟨hh, hv⟩ := h.ticked_eq_beamNext
  obtain ⟨⟨hx, hy⟩, -⟩ := h
  rw [State.beamNext_fst] at hh
  rw [State.beamNext_snd] at hv
  simp only [State.beamIndex, framePeriod, State.ticked_regs, State.ticked_config, hh, hv]
  by_cases hdot : s.hpos.toNat + 1 < Dec.htotal s.config s.regs
  · simp only [hdot, if_true]
    exact (Nat.mod_eq_of_lt (lineByLine_lt hdot hy)).symm
  have hend : s.vpos.toNat * Dec.htotal s.config s.regs + s.hpos.toNat + 1 =
      (s.vpos.toNat + 1) * Dec.htotal s.config s.regs := by
    rw [Nat.succ_mul]
    omega
  simp only [hdot, if_false, hend, Nat.add_zero]
  by_cases hline : s.vpos.toNat + 1 < Dec.vtotal s.regs
  · simp only [hline, if_true]
    exact (Nat.mod_eq_of_lt (lineByLine_lt (Nat.zero_lt_of_lt hx) hline)).symm
  · have hlast : s.vpos.toNat + 1 = Dec.vtotal s.regs := by omega
    simp [hlast, Nat.mul_comm]

theorem State.Scanning.beamIndex_afterTicks {s : State} (h : s.Scanning) (n : Nat) :
    (s.afterTicks n).beamIndex = (s.beamIndex + n) % framePeriod s.config s.regs := by
  induction n with
  | zero => exact (Nat.mod_eq_of_lt (State.beamIndex_lt h.1)).symm
  | succ n ih =>
    rw [State.afterTicks_succ, (h.afterTicks n).beamIndex_ticked, ih, State.afterTicks_regs, State.afterTicks_config,
      Nat.mod_add_mod, Nat.add_assoc]

/-- Settles O35: each TICK moves the beam to the next place of the frame. -/
theorem beamVisitsTheFrameInOrder : Obligations.BeamVisitsTheFrameInOrder := by
  intro n s hin hle
  have h : s.Scanning := ⟨hin, hle⟩
  exact ⟨_, execAll_ticks n s, s.afterTicks_regs n, (h.afterTicks n).1, h.beamIndex_afterTicks n⟩

/-- The place of a beam inside the frame determines its position. -/
theorem State.position_of_beamIndex {s : State} {p : Nat × Nat} (h : s.beamInside)
    (hp : p.1 < Dec.htotal s.config s.regs) (hplace : s.beamIndex = p.2 * Dec.htotal s.config s.regs + p.1) :
    (s.hpos.toNat, s.vpos.toNat) = p := by
  have hdigits : s.hpos.toNat + Dec.htotal s.config s.regs * s.vpos.toNat =
      p.1 + Dec.htotal s.config s.regs * p.2 := by
    rw [Nat.mul_comm _ s.vpos.toNat, Nat.mul_comm _ p.2, Nat.add_comm, Nat.add_comm p.1]
    exact hplace
  obtain ⟨hx, hy⟩ := digit_inj h.1 hp hdigits
  exact Prod.ext hx hy

/-- From any place i of a circle of T places every place j is between 1 and T places ahead. -/
theorem exists_steps_to {i j T : Nat} (hi : i < T) (hj : j < T) : ∃ n, n + 1 ≤ T ∧ (i + (n + 1)) % T = j := by
  by_cases hij : i < j
  · refine ⟨j - i - 1, by omega, ?_⟩
    rw [show i + (j - i - 1 + 1) = j by omega, Nat.mod_eq_of_lt hj]
  · refine ⟨j + T - i - 1, by omega, ?_⟩
    rw [show i + (j + T - i - 1 + 1) = j + T by omega, Nat.add_mod_right, Nat.mod_eq_of_lt hj]

/-- The beam arrives at every position of the frame within one frame. -/
theorem State.Scanning.exists_arrival {s : State} (h : s.Scanning) {p : Nat × Nat}
    (hx : p.1 < Dec.htotal s.config s.regs) (hy : p.2 < Dec.vtotal s.regs) :
    ∃ n, n + 1 ≤ framePeriod s.config s.regs ∧ (s.afterTicks n).beamNext = p := by
  obtain ⟨n, hn, hplace⟩ := exists_steps_to (State.beamIndex_lt h.1) (lineByLine_lt hx hy)
  have hthere := State.position_of_beamIndex (p := p) (h.afterTicks (n + 1)).1 (by simpa using hx)
    (by simpa using (h.beamIndex_afterTicks (n + 1)).trans hplace)
  rw [State.afterTicks_succ, (h.afterTicks n).position_ticked] at hthere
  exact ⟨n, hn, hthere⟩

/-- A flag that a TICK sets exactly when it brings the beam to p rises first within one frame, when the beam is at p. -/
theorem State.Scanning.exists_first_rise {s : State} (h : s.Scanning) {p : Nat × Nat} {flag : State → Bool}
    (hx : p.1 < Dec.htotal s.config s.regs) (hy : p.2 < Dec.vtotal s.regs) (hdown : flag s = false)
    (hset : ∀ n, flag (s.afterTicks (n + 1)) = true ↔ flag (s.afterTicks n) = true ∨ (s.afterTicks n).beamNext = p) :
    ∃ n, 1 ≤ n ∧ n ≤ framePeriod s.config s.regs ∧
      (∀ m < n, ∃ t, execAll (ticks m) s = .next t ∧ flag t = false) ∧
      ∃ t, execAll (ticks n) s = .next t ∧ flag t = true ∧ (t.hpos.toNat, t.vpos.toNat) = p := by
  obtain ⟨k, hk, harrive⟩ := h.exists_arrival hx hy
  have hup : ∃ n, flag (s.afterTicks n) = true := ⟨k + 1, (hset k).mpr (.inr harrive)⟩
  have hlow : ∀ m < Nat.find hup, flag (s.afterTicks m) = false := fun m hm => by simpa using Nat.find_min hup hm
  have hle : Nat.find hup ≤ k + 1 := Nat.find_min' hup ((hset k).mpr (.inr harrive))
  have hhigh := Nat.find_spec hup
  generalize Nat.find hup = n at hlow hle hhigh
  cases n with
  | zero => exact absurd hhigh (by simp [hdown])
  | succ n =>
    refine ⟨n + 1, by omega, hle.trans hk, fun m hm => ⟨_, execAll_ticks m s, hlow m hm⟩,
      _, execAll_ticks (n + 1) s, hhigh, ?_⟩
    have hnext := ((hset n).mp hhigh).resolve_left (by simp [hlow n])
    rw [State.afterTicks_succ, (h.afterTicks n).position_ticked, hnext]

/-- Settles O37: each flag is one that a TICK sets exactly when it brings the beam to the flag's position. -/
theorem enabledEventsFireWithinAFrame : Obligations.EnabledEventsFireWithinAFrame := by
  intro s p hin hle
  have h : s.Scanning := ⟨hin, hle⟩
  refine ⟨fun hp hen hdown => ?raster, fun hp hen hdown => ?vblank⟩
  case raster =>
    obtain ⟨rfl, hx, hy⟩ := (rasterPos_eq_some_iff ..).mp hp
    refine h.exists_first_rise hx hy hdown fun n => ?_
    rw [State.afterTicks_succ, State.fp_ticked_iff (h.afterTicks n).valid, State.afterTicks_regs,
      State.afterTicks_config, hp, and_iff_right hen, Option.some_inj, eq_comm (a := (_, _))]
  case vblank =>
    obtain ⟨hx, rfl, hy⟩ := (vblankPos_eq_some_iff ..).mp hp
    refine h.exists_first_rise hx hy hdown fun n => ?_
    rw [State.afterTicks_succ, State.fv_ticked_iff (h.afterTicks n).valid, State.afterTicks_regs,
      State.afterTicks_config, hp, and_iff_right hen, Option.some_inj, eq_comm (a := (_, _))]

end Sys2Proof.Machine

namespace Sys2Proof.Machine

/-! ## Completion (R107 of 30_encoding.md, R240 of 60_exceptions.md) -/

/-- A step has a next state unless the oldest word is a reserved host action code (R105). -/
theorem step_next_or_reserved (s : State) :
    (∃ t, step s = .next t) ∨
      ∃ code : BitVec 4, 2 ≤ code.toNat ∧ step s = .refused (.reservedAction code) := by
  rcases hin : s.input with _ | ⟨w, rest⟩
  · exact .inl ⟨s, step_of_input_nil hin⟩
  · rcases hw : decode w with ⟨⟨code⟩⟩ | i
    · obtain ⟨-, -, hcode⟩ := (decode_eq_error_iff w code).mp hw
      exact .inr ⟨code, hcode, step_of_decode_error hin hw⟩
    · obtain ⟨t, ht⟩ := exec_next i { s with input := rest }
      exact .inl ⟨t, (step_of_decode_ok hin hw).trans ht⟩

/-- Settles O8: no transaction stops, so a step can stop only at a word that spells none. -/
theorem everyTransactionCompletes : Obligations.EveryTransactionCompletes := ⟨exec_next, step_next_or_reserved⟩

/-! ## The sample words (95_test_vectors.md) -/

/-- Settles O3: each word is put together from the four fields of R100, which the decoder takes apart. -/
theorem sampleWordsDecode : Obligations.SampleWordsDecode :=
  ⟨decode_mkWord_write 0 0, decode_mkWord_write 0xFF 7, decode_mkWord_read 0xFF 0, decode_mkWord_read 0 5,
    decode_mkWord_tick 0, decode_mkWord_tick 0xFF, decode_mkWord_powerOn 0⟩

/-! ## Power-on (R262, R263 of 70_reset_and_hazards.md) -/

@[simp] theorem State.R_reset (i : Fin 64) : State.reset.R i = 0 := Vector.getElem_replicate i.isLt
@[simp] theorem State.P_reset (j : Fin 8) : State.reset.P j = 0 := Vector.getElem_replicate j.isLt

/-- After POWERON every byte a table has reads 0. -/
theorem memRead_of_exec_powerOn {s t : State} (h : exec .powerOn s = .next t) {l : Loc}
    (hl : l.present s.config = true) : t.memRead l = 0 := by
  rw [memRead_of_execPowerOn h, State.memRead_resetOp, if_pos hl]

theorem exec_powerOn (s : State) :
    exec .powerOn s = .next { State.reset with input := s.input, draws := s.draws, config := s.config } := rfl

/-- The default tables have every byte, and POWERON leaves the initial state as it is. -/
theorem State.memRead_reset (l : Loc) : State.reset.memRead l = 0 :=
  memRead_of_exec_powerOn (exec_powerOn State.reset) (Loc.present_default l)

/-- Settles O9: the registers, latches and tables read 0, so no flag is pending. -/
theorem resetStateIsAllZero : Obligations.ResetStateIsAllZero :=
  ⟨State.R_reset, State.P_reset, State.memRead_reset, rfl, rfl, rfl, rfl, rfl, rfl,
    State.irqV_of_not_fv (by simp [State.fv, bit]), State.irqR_of_not_fp (by simp [State.fp, bit])⟩

/-- Settles O10: the state after POWERON is the initial state but for the model's own fields. -/
theorem powerOnZeroesEverything : Obligations.PowerOnZeroesEverything := fun s =>
  ⟨_, exec_powerOn s, State.R_reset, State.P_reset, fun _ => memRead_of_exec_powerOn (exec_powerOn s),
    rfl, rfl, rfl, rfl, rfl, rfl, rfl, ⟨rfl, rfl⟩, ⟨rfl, rfl⟩⟩

/-- Settles O41: empty tables are canonical, zero latches are legal, and the invariant does not see the pending
words. -/
theorem resetMeetsTheInvariant : Obligations.ResetMeetsTheInvariant :=
  ⟨⟨State.tablesOk_of_empty rfl, by simp [State.latchesOk, bit]⟩, fun _ _ _ h => h⟩

/-! ## The reset operation (R260, R261 of 70_reset_and_hazards.md) -/

theorem clearRegs_clearRegs (r : Regs) : clearRegs (clearRegs r) = clearRegs r :=
  regs_ext fun i => by
    rw [reg_clearRegs, ite_eq_right_iff]
    exact fun hi => by rw [reg_clearRegs, if_pos hi]

/-- Only the registers are not simply overwritten, and those cleared once stay clear. -/
theorem State.resetOp_resetOp (s : State) : s.resetOp.resetOp = s.resetOp := by
  simp only [State.resetOp, clearRegs_clearRegs]

theorem State.quiet_resetOp (s : State) : s.resetOp.quiet = s.quiet.resetOp := rfl
theorem State.quiet_quiet (s : State) : s.quiet.quiet = s.quiet := rfl

/-- Settles O12: both transactions are the reset operation, which a second time changes nothing. -/
theorem resetOperationIsIdempotent : Obligations.ResetOperationIsIdempotent := by
  intro v w s hv hw
  refine ⟨_, exec_outP7_of_set hv s, ?_⟩
  rw [execAll_cons (exec_outP7_of_set hv s), execAll_singleton, exec_outP7_of_set hw, State.quiet_resetOp,
    State.quiet_quiet, State.resetOp_resetOp]

/-- Settles O13: the read returns the register as the reset operation left it. -/
theorem registersReadBackAfterReset : Obligations.RegistersReadBackAfterReset := by
  intro v a s hv
  obtain ⟨t, ht, hout, -⟩ := execAll_rreg a s.quiet.resetOp
  have hR := s.quiet.R_resetOp a.toFin
  exact ⟨t, (execAll_cons (exec_outP7_of_set hv s) _).trans ht, fun h => by rw [hout, hR, if_pos h],
    fun h => by rw [hout, hR, if_neg h, State.R_quiet]⟩

/-! ## The interrupt enables (R242, R243 of 60_exceptions.md) -/

/-- Settles O31: the write of R14 leaves P6, where the flags stand, and sets the byte the lines are masked with. -/
theorem enableBitsGateTheLines : Obligations.EnableBitsGateTheLines := by
  intro v s haddr
  obtain ⟨t, ht, hR, -, -, hports, -⟩ := registerDataWriteEffect v s
  have hP : t.P 6 = s.P 6 := hports 6 (by decide)
  have hR14 : t.R 14 = v := by simpa [haddr] using hR
  have hfv : t.fv = s.fv := congrArg (bit · 0) hP
  have hfp : t.fp = s.fp := congrArg (bit · 1) hP
  have hiev : iev t.regs = bit v 0 := congrArg (bit · 0) hR14
  have hiep : iep t.regs = bit v 1 := congrArg (bit · 1) hR14
  exact ⟨t, ht, hfv, hfp, by rw [State.irqV, hfv, hiev], by rw [State.irqR, hfp, hiep]⟩

/-! ## Streams of scroll reads (R140 of 41_data_ports.md) -/

theorem SameTables.trans {l : List Loc} {s t u : State} (h : SameTables l s t) (h' : SameTables l t u) :
    SameTables l s u := fun i hi => (h' i hi).trans (h i hi)

theorem SameRegs.mono {l l' : List (Fin 64)} {s t : State} (hl : l ⊆ l') (h : SameRegs l s t) : SameRegs l' s t :=
  fun i hi => h i (mt (@hl i) hi)

theorem scrollIndex_eq (s : State) : scrollIndex s.regs = 256 * (bit (s.R 2) 5).toNat + (s.R 4).toNat := rfl

/-- The byte the scroll port reaches is the one at its place among the 512. -/
theorem State.scPortLoc_eq_scrollIndex (s : State) :
    s.scPortLoc = .scr (if 256 ≤ scrollIndex s.regs then .B else .A) (BitVec.ofNat 8 (scrollIndex s.regs)) := by
  have hloc : s.scPortLoc = .scr (if bit (s.R 2) 5 then .B else .A) (s.R 4) := rfl
  have hlt := (s.R 4).isLt
  rw [hloc, scrollIndex_eq]
  cases bit (s.R 2) 5 with
  | false => simp [hlt]
  | true => simp [BitVec.ofNat_add]

/-- One scroll read with SCI set: the byte at the port's place, and the port at the next place of the 512. -/
theorem exec_inP2_of_sci {s : State} (hsci : sci s.regs = true) :
    ∃ t, exec .inP2 s = .next t ∧ t.outByte = some (s.memRead s.scPortLoc) ∧ sci t.regs = true ∧
      scrollIndex t.regs = (scrollIndex s.regs + 1) % 512 ∧ SameRegs [2, 4] s t ∧ SameTables [] s t := by
  obtain ⟨_, t, -, ht, -, -, -, -, -, htables, -, ⟨hout, -⟩, -, hcursor⟩ := scrollPortEffect 0 s
  obtain ⟨hinside, hend, -⟩ := hcursor t (by simp)
  have hlt := (s.R 4).isLt
  have hbit := Bool.toNat_lt (bit (s.R 2) 5)
  rw [sci_eq_R] at hsci
  refine ⟨t, ht, hout, ?_⟩
  rw [sci_eq_R, scrollIndex_eq, scrollIndex_eq]
  rcases (by omega : (s.R 4).toNat + 1 < 256 ∨ (s.R 4).toNat + 1 = 256) with h | h
  · obtain ⟨hR4, hregs⟩ := hinside hsci h
    rw [hregs 2 (by decide), hR4]
    exact ⟨hsci, by omega, hregs.mono (by simp), htables⟩
  · obtain ⟨hR4, hplane, hrest, hregs⟩ := hend hsci h
    refine ⟨(hrest 3 (by decide)).trans hsci, ?_, hregs, htables⟩
    rw [hplane, hR4]
    cases bit (s.R 2) 5 with
    | false => simp [h]
    | true => simp [Nat.add_assoc, h]

/-- A run of scroll reads with SCI set moves the port as many places round the 512 bytes. -/
theorem execAll_inP2_of_sci (n : Nat) {s : State} (hsci : sci s.regs = true) :
    ∃ t, execAll (List.replicate n .inP2) s = .next t ∧ sci t.regs = true ∧
      scrollIndex t.regs = (scrollIndex s.regs + n) % 512 ∧ SameRegs [2, 4] s t ∧ SameTables [] s t := by
  induction n generalizing s with
  | zero =>
    have hlt : scrollIndex s.regs < 512 := by
      have hR4 := (s.R 4).isLt
      have hbit := Bool.toNat_lt (bit (s.R 2) 5)
      rw [scrollIndex_eq]
      omega
    exact ⟨s, rfl, hsci, (Nat.mod_eq_of_lt hlt).symm, fun _ _ => rfl, fun _ _ => rfl⟩
  | succ n ih =>
    obtain ⟨u, hu, -, hsciu, hindex, hregs, htables⟩ := exec_inP2_of_sci hsci
    obtain ⟨t, ht, hscit, hindex', hregs', htables'⟩ := ih hsciu
    exact ⟨t, (execAll_cons hu _).trans ht, hscit, by omega, hregs.trans hregs', htables.trans htables'⟩

/-- Settles O26: after the n reads the port stands at the n-th place on, and one more read returns that byte. -/
theorem scrollReadsStreamBothPlanes : Obligations.ScrollReadsStreamBothPlanes := by
  intro n s hsci
  obtain ⟨t, ht, hscit, hindex, hregs, htables⟩ := execAll_inP2_of_sci n hsci
  obtain ⟨u, hu, hout, -⟩ := exec_inP2_of_sci hscit
  refine ⟨t, ht, hscit, hindex, hregs, htables, u, hu, ?_⟩
  rw [hout, htables _ List.not_mem_nil, State.scPortLoc_eq_scrollIndex]

/-! ## A palette triplet (R147 of 41_data_ports.md) -/

/-- A palette write that does not complete the triplet: the component is stored, and the port moves to the next. -/
theorem exec_outP3_of_partial (v : Byte) {s : State} (hpal : (s.R 5).toNat < s.config.palN) (hsub : s.subW ≠ 2) :
    ∃ t, exec (.outP3 v) s = .next t ∧ t.memRead (.cram (s.R 5) s.subW) = v ∧
      SameTables [.cram (s.R 5) s.subW] s t ∧ t.subW.val = s.subW.val + 1 ∧ t.outEvents = [] ∧ SameRegs [] s t := by
  obtain ⟨t, ht, -, -, hstored, htables, -, hpartial, hregs, -⟩ := paletteWriteEffect v s
  obtain ⟨hsub', hevents, hR5⟩ := hpartial hsub
  refine ⟨t, ht, hstored (decide_eq_true hpal), htables, hsub', hevents, fun i _ => ?_⟩
  by_cases hi : i = 5
  · rw [hi, hR5]
  · exact hregs i (by simpa using hi)

/-- The palette write that completes the triplet, with CPI set: the entry is committed with the byte stored, and the
cursor moves to the next entry. -/
theorem exec_outP3_of_full (v : Byte) {s : State} (hpal : (s.R 5).toNat < s.config.palN) (hsub : s.subW = 2)
    (hcpi : cpi s.regs = true) :
    ∃ t, exec (.outP3 v) s = .next t ∧ t.memRead (.cram (s.R 5) 2) = v ∧
      (∀ k, k ≠ 2 → t.memRead (.cram (s.R 5) k) = s.memRead (.cram (s.R 5) k)) ∧ t.subW = 0 ∧
      t.outEvents = [.paletteCommit (s.R 5) (s.memRead (.cram (s.R 5) 0)) (s.memRead (.cram (s.R 5) 1)) v] ∧
      t.R 5 = s.R 5 + 1 := by
  obtain ⟨t, ht, -, -, hstored, htables, hfull, -⟩ := paletteWriteEffect v s
  obtain ⟨hsub', hevents, hR5⟩ := hfull hsub
  have hlast : t.memRead (.cram (s.R 5) 2) = v := hsub ▸ hstored (decide_eq_true hpal)
  have hothers (k : Fin 3) (hk : k ≠ 2) : t.memRead (.cram (s.R 5) k) = s.memRead (.cram (s.R 5) k) :=
    htables _ (by simpa [hsub] using hk)
  refine ⟨t, ht, hlast, hothers, hsub', ?_, ?_⟩
  · rw [hevents, hothers 0 (by decide), hothers 1 (by decide), hlast]
  · rw [if_pos (cpi_eq_R s ▸ hcpi)] at hR5
    exact BitVec.eq_of_toNat_eq (hR5.trans (BitVec.toNat_add (s.R 5) 1).symm)

/-- Settles O29: two writes fill the first two components of the entry, and the third completes and commits it. -/
theorem paletteTripletCommitsOnce : Obligations.PaletteTripletCommitsOnce := by
  intro s r g b hsub hcpi hpal
  obtain ⟨t1, ht1, hr, -, hsub1, hevents1, hregs1⟩ := exec_outP3_of_partial r hpal (by simp [hsub])
  have hR1 : t1.R 5 = s.R 5 := hregs1 5 List.not_mem_nil
  have hs1 : t1.subW = 1 := Fin.ext (by simp [hsub1, hsub])
  obtain ⟨t2, ht2, hg, htables2, hsub2, hevents2, hregs2⟩ :=
    exec_outP3_of_partial g (s := t1) (by rwa [hR1, exec_config ht1]) (by simp [hs1])
  have hR2 : t2.R 5 = s.R 5 := (hregs2 5 List.not_mem_nil).trans hR1
  have hs2 : t2.subW = 2 := Fin.ext (by simp [hsub2, hs1])
  have hcpi2 : cpi t2.regs = true := by
    rw [cpi_eq_R, hregs2 2 List.not_mem_nil, hregs1 2 List.not_mem_nil]
    exact hcpi
  obtain ⟨t3, ht3, hb, hkept, hsub3, hevents3, hcursor⟩ :=
    exec_outP3_of_full b (s := t2) (by rwa [hR2, exec_config ht2, exec_config ht1]) hs2 hcpi2
  rw [hsub] at hr
  rw [hR1, hs1] at hg htables2
  rw [hR2] at hb hkept hevents3 hcursor
  have hr2 : t2.memRead (.cram (s.R 5) 0) = r := (htables2 _ (by simp)).trans hr
  refine ⟨t1, t2, t3, ht1, ht2, ht3, ?_, hcursor, hsub3, (hkept 0 (by decide)).trans hr2,
    (hkept 1 (by decide)).trans hg, hb⟩
  rw [hevents1, hevents2, hevents3, hr2, hg]
  rfl

/-! ## A cell written and read back through the pattern-name port (R135 of 41_data_ports.md) -/

/-- A run keeps the tables if each of its transactions does. -/
theorem execAll_sameTables {is : List Instr} (hkeep : ∀ i ∈ is, ∀ s t, exec i s = .next t → SameTables [] s t)
    {s t : State} (h : execAll is s = .next t) : SameTables [] s t := by
  induction is generalizing s with
  | nil =>
    cases h
    exact fun _ _ => rfl
  | cons i is ih =>
    rw [List.forall_mem_cons] at hkeep
    obtain ⟨hi, his⟩ := hkeep
    obtain ⟨u, hu⟩ := exec_next i s
    rw [execAll_cons hu] at h
    exact (hi s u hu).trans (ih his h)

/-- `SETPN` writes registers only. -/
theorem execAll_setPn_sameTables {pl : BitVec 1} {row col : BitVec 6} {s t : State}
    (h : execAll (setPn pl row col) s = .next t) : SameTables [] s t := by
  refine execAll_sameTables (fun i hi s t hexec l _ => ?_) h
  by_contra hne
  obtain ⟨v, -, hport⟩ | ⟨-, hreset⟩ := onlyTheseTransactionsChangeATable i s t l hexec hne
  · rcases hport with ⟨rfl, -⟩ | ⟨rfl, -⟩ | ⟨rfl, -⟩ | ⟨rfl, -⟩ <;> simp [setPn] at hi
  · rcases hreset with rfl | ⟨v, rfl, -⟩ <;> simp [setPn] at hi

/-- A read after `SETPN` returns the cell's first byte; where a name has a second byte the next read returns it. -/
theorem execAll_setPn_inP0 (pl : BitVec 1) (row col : BitVec 6) (s : State) :
    ∃ t, execAll (setPn pl row col ++ [.inP0]) s = .next t ∧
      t.outByte = some (s.memRead (pnLoc s.regs (planeOf (bit (pl.setWidth 8) 0)) row.toNat col.toNat 0)) ∧
      (Dec.pnBytes s.regs = 2 →
        ∃ u, exec .inP0 t = .next u ∧
          u.outByte = some (s.memRead (pnLoc s.regs (planeOf (bit (pl.setWidth 8) 0)) row.toNat col.toNat 1))) := by
  obtain ⟨c, hc, hregs, hphase, -, hloc⟩ := execAll_setPn pl row col s
  have htables := execAll_setPn_sameTables hc
  obtain ⟨t, ht, hout, htables', -, hstay, -⟩ := patternNameReadEffect c
  rw [hphase, hloc, htables _ List.not_mem_nil] at hout
  refine ⟨t, (execAll_append hc _).trans ((execAll_singleton ..).trans ht), hout, fun hb => ?_⟩
  obtain ⟨hphase', hsame, -⟩ := hstay hphase (hregs.pnBytes_eq.trans hb)
  obtain ⟨u, hu, hout', -⟩ := patternNameReadEffect t
  rw [hphase', hsame.pnPortLoc_eq, hloc, (htables.trans htables') _ List.not_mem_nil] at hout'
  exact ⟨u, hu, hout'⟩

/-- Settles O23: the cursor's registers are no part of a cell's address, so the read finds the bytes where the write
left them. -/
theorem patternNameRoundTrip : Obligations.PatternNameRoundTrip := by
  intro s pl row col v0 v1
  refine ⟨fun _ => ?oneByte, fun hb => ?twoByte⟩
  case oneByte =>
    obtain ⟨w, hw, hregs, hfirst, -⟩ := execAll_setPn_outP0 pl row col v0 s
    obtain ⟨t, ht, hout, -⟩ := execAll_setPn_inP0 pl row col w
    rw [hregs.pnLoc_eq, hfirst] at hout
    exact ⟨t, by rw [List.append_assoc, execAll_append hw, ht], hout⟩
  case twoByte =>
    obtain ⟨w, hw, hregs, hfirst, hsecond⟩ := execAll_setPn_outP0_outP0 hb pl row col v0 v1
    obtain ⟨t, ht, hout, hnext⟩ := execAll_setPn_inP0 pl row col w
    obtain ⟨u, hu, hout'⟩ := hnext (hregs.pnBytes_eq.trans hb)
    rw [hregs.pnLoc_eq, hfirst] at hout
    rw [hregs.pnLoc_eq, hsecond] at hout'
    exact ⟨t, u, by rw [List.append_assoc, execAll_append hw, ht], hout, hu, hout'⟩

end Sys2Proof.Machine
